-- ==== Sys2Proof/Word.lean ====
section
/-! DEFINITION. The words of the block: bytes, 16-bit codes and the halves of a code. -/

namespace Sys2Proof

/-- "Byte" is 8 bits, unsigned (00_scope.md section 5; R75). -/
abbrev Byte := BitVec 8

/-- The width of a checksum register and of a code (R20, R100). -/
abbrev Code := BitVec 16

/-- `lo8(w)` is `w[7:0]` (00_scope.md section 5). -/
def lo8 (w : Code) : Byte := w.extractLsb' 0 8

/-- `hi8(w)` is `w[15:8]` (00_scope.md section 5). -/
def hi8 (w : Code) : Byte := w.extractLsb' 8 8

end Sys2Proof
end

