-- ==== Sys2Proof/Config.lean ====
section
/-! DEFINITION. What is fixed for one block (the parameters of R8) and the values no source gives:
opaque constants, which nothing can evaluate. -/

namespace Sys2Proof

/-- One answer of the link's inbound side to one `LinkGet()` (00_scope.md section 5, R36). -/
inductive GetAnswer where
  /-- `Byte(b)`. -/
  | byte (b : Byte)
  /-- `Timeout`: the expiry of the link's read timeout (R233). -/
  | timeout
  deriving DecidableEq, Repr, Inhabited

/-- One answer of the link's outbound side to one `LinkPut(b)` (00_scope.md section 5, R36). -/
inductive PutAnswer where
  | accepted
  | rejected
  deriving DecidableEq, Repr, Inhabited

/-- The parameters of R8, each with SR's literal as its default. -/
structure Config where
  sync1 : Byte := 0xAA
  sync2 : Byte := 0x77
  cmdRead : Byte := 0x03
  cmdWrite : Byte := 0x04
  cmdAngleTlm : Byte := 0x05
  crcPoly : Code := 0x8005
  crcInit : Code := 0xFFFF
  syncCap : Nat := 50
  /-- "greatest value of `LENGTH`, so greatest count of data bytes", and so the number of elements of
  each data buffer (R8, R22). What a value other than the 255 of one byte means, smaller or greater, is
  the model's choice (log 4). -/
  maxLen : Nat := 255
  /-- Joints of the device; only the host conventions read it (R8, R202). What a value other than 7
  means, past one byte among them, is the model's choice (log 43). -/
  nJoints : Nat := 7
  deriving DecidableEq, Repr

/-- R8's defaults. -/
def Config.default : Config := {}

/-- The configurations the spec is written for (R10): distinct sync bytes and distinct command bytes.
Any MAX_LEN is legal, one above 255 too (the model's choice, log 4). Where another configuration is
refused is log 38. -/
def Config.legal (c : Config) : Bool :=
  c.sync1 != c.sync2 && c.cmdRead != c.cmdWrite && c.cmdRead != c.cmdAngleTlm &&
    c.cmdWrite != c.cmdAngleTlm

/-- The longest frame the block sends, 5 + MAX_LEN + 2 bytes: 262 by default (R8, R22). -/
def Config.longestFrame (c : Config) : Nat := 5 + c.maxLen + 2

/-! ### Free values: the environment (R13)

The answers after those State lists. `n` is the position in the answer stream (R38). Log 3. -/

opaque Config.freeGet : Nat → GetAnswer
opaque Config.freePut : Nat → PutAnswer

/-! ### The device, as far as the host conventions name it (48_host_conventions.md)

No address, no enumerated value and no behaviour outside a documented range is in any source. Log 28,
29, 30. -/

/-- The regions of the remote register space (R51). -/
inductive Region where
  | identity
  | configuration
  | runtime
  deriving DecidableEq, Repr, Inhabited

/-- The quantities of the register map (R191, R192, R193). -/
inductive DevReg where
  | deviceCode | version | mac
  | id | baud | offset
  | lock | status | effector | vacuum | speed | time | angle | ik
  | angleTlmRate | angleFb | loadTlmRate | loadFb
  deriving DecidableEq, Repr

/-- "motor force mode (protection/servo/forceless)" (R193). -/
inductive ForceMode where
  | protection | servo | forceless
  deriving DecidableEq, Repr

/-- "end-effector type (vacuum/claw)" (R193). -/
inductive Effector where
  | vacuum | claw
  deriving DecidableEq, Repr

/-- What `setSpeed(value)` and `setTime(value)` write (91 N9). -/
inductive JointScope where
  | all
  | one (joint : Nat)
  deriving DecidableEq, Repr, Inhabited

/-- What follows a failed unlock in the write-lock bracket (91 N21, 93 U6). -/
inductive BracketPolicy where
  /-- Nothing more is sent. -/
  | stop
  /-- Only the re-lock is sent. -/
  | relock
  /-- The configuration write and the re-lock are sent. -/
  | goOn
  deriving DecidableEq, Repr, Inhabited

opaque Config.devAddr : DevReg → Byte
opaque Config.forceModeByte : ForceMode → Byte
opaque Config.effectorByte : Effector → Byte
opaque Config.vacuumByte : Bool → Byte
opaque Config.speedScope : Byte → JointScope
opaque Config.timeScope : Byte → JointScope
opaque Config.afterFailedUnlock : BracketPolicy
/-- A physical value whose biased wire value is no byte (R197, R198, R201; 91 N20). -/
opaque Config.freeBiased : Int → Byte
/-- A position component whose biased value is no 16-bit number (R200; 91 N20). -/
opaque Config.freePosition : Int → Byte × Byte

/-! ### Open parameters no rule reads (R9) -/

/-- `T_BYTE`, the link's read timeout for one byte (R9, R233). -/
opaque Config.tByte : Nat
/-- `RX_FIFO_DEPTH`, how many unread inbound bytes the link keeps (R9, R38). -/
opaque Config.rxFifoDepth : Nat

end Sys2Proof
end

