-- ==== Sys2Proof/Machine/Engine.lean ====
section
/-! DEFINITION. The Checksum Engine (40_checksum.md): a pure function of the parameters CRC_POLY and
CRC_INIT and of a byte sequence. -/

namespace Sys2Proof.Machine

/-- R101: `rev8(b)[i] = b[7-i]`. -/
def rev8 (b : Byte) : Byte := b.reverse

/-- R104: `rev16(w)[i] = w[15-i]`. -/
def rev16 (w : Code) : Code := w.reverse

/-- R102: the reversed byte is XORed into the high byte of the register. -/
def crcFold (reg : Code) (b : Byte) : Code := reg ^^^ ((rev8 b).setWidth 16 <<< 8)

/-- One division step of R103: the test is on bit 15 before the shift. -/
def divStep (poly reg : Code) : Code :=
  if reg.getLsbD 15 then (reg <<< 1) ^^^ poly else reg <<< 1

/-- `n` division steps. -/
def divSteps (poly : Code) : Nat → Code → Code
  | 0, reg => reg
  | n + 1, reg => divSteps poly n (divStep poly reg)

/-- `byte_step(reg, b)` of R102 and R103: the fold, then eight division steps. -/
def byteStep (poly reg : Code) (b : Byte) : Code := divSteps poly 8 (crcFold reg b)

/-- The register after a byte sequence, in sequence order (R100). -/
def crcReg (poly reg : Code) (s : List Byte) : Code := s.foldl (byteStep poly) reg

/-- R100: `crc16(s)`. No constant is XORed into the result (R104). -/
def crc16 (c : Config) (s : List Byte) : Code := rev16 (crcReg c.crcPoly c.crcInit s)

end Sys2Proof.Machine
end

