-- ==== Sys2Proof/Syntax.lean ====
section
/-! DEFINITION. The rows of spec/opcode_table.json: the four frame kinds, which have bits, and the
six host operations, which have none (R78, R88). -/

namespace Sys2Proof

/-- The way a frame travels (R78): the read request and its acknowledgment carry the same command
byte and are told apart by direction only. -/
inductive Direction where
  | hostToDevice
  | deviceToHost
  deriving DecidableEq, Repr

inductive Instr where
  /-- READ_REQ, format H (R170). -/
  | readReq (addr len : Byte)
  /-- READ_ACK, format D (R171). -/
  | readAck (addr len : Byte) (data : List Byte)
  /-- WRITE, format D (R172). -/
  | write (addr len : Byte) (data : List Byte)
  /-- ANGLE_TLM, format D (R173). -/
  | angleTlm (addr len : Byte) (data : List Byte)
  /-- CRC_INIT (R105). -/
  | crcInit
  /-- CRC_BYTE b (R106). -/
  | crcByte (b : Byte)
  /-- CRC_OUT (R107). -/
  | crcOut
  /-- CHECKSUM s (R109). -/
  | checksum (s : List Byte)
  /-- SEND; its operands are the TX registers (R120). -/
  | send
  /-- RECV; its operand is EXPECT (R140). -/
  | recv
  deriving DecidableEq, Repr

end Sys2Proof
end

