-- ==== Sys2Proof/WellFormed.lean ====
section
/-! DEFINITION. Which terms of `Instr` are instructions: a format D frame carries exactly LENGTH data
bytes (R73, R121 `wf_shape`). Nothing else is constrained: ADDRESS and LENGTH have no reserved values
(R83) and CHECKSUM takes a sequence of any length (R109). -/

namespace Sys2Proof

/-- "PAYLOAD length in a frame must exactly equal LENGTH" (R73, R261). -/
def dataFits (len : Byte) (data : List Byte) : Bool := data.length == len.toNat

def Instr.wellFormed : Instr → Bool
  | .readReq _ _ => true
  | .readAck _ len data => dataFits len data
  | .write _ len data => dataFits len data
  | .angleTlm _ len data => dataFits len data
  | .crcInit => true
  | .crcByte _ => true
  | .crcOut => true
  | .checksum _ => true
  | .send => true
  | .recv => true

end Sys2Proof
end

