-- ==== Sys2Proof/Decode.lean ====
section
/-! DEFINITION. Frames as bytes (30_encoding.md): the decoder, total on any bytes and rejecting by
name, and the encoder written from the frame layout of R70. A host operation has no bytes (R88). -/

namespace Sys2Proof

open Sys2Proof.Machine (crc16)

/-- Why bytes are no frame. -/
inductive DecodeError where
  /-- Fewer than the five header bytes. -/
  | tooShort
  /-- The first two bytes are not SYNC1, SYNC2: noise (R82). -/
  | notSync
  /-- A COMMAND value outside the closed set (R80). -/
  | reservedCommand (cmd : Byte)
  /-- Fewer data bytes than LENGTH (R84). -/
  | missingData
  /-- No room for the two checksum bytes. -/
  | missingChecksum
  /-- A transmitted checksum byte differs from the recomputed one (R72). -/
  | badChecksum
  deriving DecidableEq, Repr

/-- HEADER of the glossary. -/
def header (c : Config) (cmd addr len : Byte) : List Byte := [c.sync1, c.sync2, cmd, addr, len]

/-- The covered bytes, `HEADER ++ DATA` (R71). -/
def covered (c : Config) (cmd addr len : Byte) (data : List Byte) : List Byte :=
  header c cmd addr len ++ data

/-- The two checksum bytes of some covered bytes, low byte first (R54, R70). -/
def ckBytes (c : Config) (s : List Byte) : List Byte := [lo8 (crc16 c s), hi8 (crc16 c s)]

/-- The frame of R70. -/
def frameBytes (c : Config) (cmd addr len : Byte) (data : List Byte) : List Byte :=
  covered c cmd addr len data ++ ckBytes c (covered c cmd addr len data)

/-- The instruction a format D frame's command byte names (R78); with CMD_READ this is the
acknowledgment, since the request is of format H. -/
def dataFrame (c : Config) (cmd addr len : Byte) (data : List Byte) : Option Instr :=
  if cmd = c.cmdRead then some (.readAck addr len data)
  else if cmd = c.cmdWrite then some (.write addr len data)
  else if cmd = c.cmdAngleTlm then some (.angleTlm addr len data)
  else none

/-- Reads an instruction's covered bytes off the front and returns what follows them, which for a
whole frame is the checksum. The format is chosen by direction and command byte (R78, R85), the
length by the fifth byte alone (R84). The direction matters for CMD_READ alone: a frame with CMD_WRITE
is a WRITE and one with CMD_ANGLE_TLM an ANGLE_TLM whichever way it travels, though R78's table gives
each one direction and the other "loop-back tests only". DESIGN CHOICE, log 39. The checksum is not looked at: the match and mask of
opcode_table.json are on the header (R79). -/
def decode (c : Config) (dir : Direction) : List Byte → Except DecodeError (Instr × List Byte)
  | s1 :: s2 :: cmd :: addr :: len :: rest =>
    if s1 = c.sync1 ∧ s2 = c.sync2 then
      if cmd = c.cmdRead ∧ dir = .hostToDevice then .ok (.readReq addr len, rest)
      else
        match dataFrame c cmd addr len (rest.take len.toNat) with
        | none => .error (.reservedCommand cmd)
        | some i =>
          if (rest.take len.toNat).length < len.toNat then .error .missingData
          else .ok (i, rest.drop len.toNat)
    else .error .notSync
  | _ => .error .tooShort

/-- Reads one whole frame: the covered bytes, then the two checksum bytes, which must be those of
the covered bytes (R71, R72). -/
def decodeFrame (c : Config) (dir : Direction) (bytes : List Byte) :
    Except DecodeError (Instr × List Byte) :=
  match decode c dir bytes with
  | .error e => .error e
  | .ok (i, rest) =>
    match rest with
    | lo :: hi :: rest' =>
      if [lo, hi] = ckBytes c (bytes.take (bytes.length - rest.length)) then .ok (i, rest')
      else .error .badChecksum
    | _ => .error .missingChecksum

/-- The whole frame of an instruction, checksum included (R70, R73); none for a host operation, which
has no binary encoding (R88). -/
def encode (c : Config) : Instr → Option (List Byte)
  | .readReq addr len => some (frameBytes c c.cmdRead addr len [])
  | .readAck addr len data => some (frameBytes c c.cmdRead addr len data)
  | .write addr len data => some (frameBytes c c.cmdWrite addr len data)
  | .angleTlm addr len data => some (frameBytes c c.cmdAngleTlm addr len data)
  | .crcInit => none
  | .crcByte _ => none
  | .crcOut => none
  | .checksum _ => none
  | .send => none
  | .recv => none

/-- The bytes of a word of `nbits` bits numbered as opcode_table.json numbers a header: byte 0, the
first on the link, is the most significant (R79). Every later byte is 0. Log 13. -/
def tableBytes (nbits w : Nat) : List Byte :=
  ((List.range (nbits / 8)).map fun k => BitVec.ofNat 8 (w >>> (8 * (nbits / 8 - 1 - k)))) ++
    List.replicate (Config.default.longestFrame - nbits / 8) 0

/-- The instruction the decoder reads from a word of the opcode table, with the default parameters
and read in the request direction: READ_REQ and READ_ACK have the same word (R78, log 12). -/
def decodeTableWord (nbits w : Nat) : Option Instr :=
  match decode Config.default .hostToDevice (tableBytes nbits w) with
  | .ok (i, _) => some i
  | .error _ => none

end Sys2Proof
end

