-- ==== Sys2Proof/Machine/State.lean ====
section
/-! DEFINITION. The state of the machine, plain data: the registers of 10_state.md, the link behind
the block's port, and the host's pending requests. -/

namespace Sys2Proof.Machine

/-- The registers and flags the host can name in an access (R20, R28, R32). `TX_CRC`, `RX_CRC`, the
indices, the received checksum bytes and `SAW_SYNC1` are the block's own (R222, R32). -/
inductive Reg where
  | txCmd | txAddr | txLen | txNData
  | txData (i : Nat)
  | rxCmd | rxAddr | rxLen
  | rxData (i : Nat)
  /-- EXPECT whole, ANY at bit 8 and CMD below it (R32); beside it its two fields, each alone (log 21). -/
  | expect
  | expectAny | expectCmd
  | scanCnt | status | rxValid | busy
  /-- `CRC_ACC`, which the host reaches through the checksum operations only. -/
  | crcAcc
  /-- A register of a sequencer. -/
  | sequencer
  deriving DecidableEq, Repr

/-- Why the machine stops with a fault. -/
inductive Fault where
  /-- A host read of a register that holds no value (R24, R41, R157; 93 U11). Raised by `hostRead`. Safe. -/
  | readNoValue (r : Reg)
  /-- A host read of a register that is not the host's to read: CRC_ACC is reached "through CRC_INIT,
  CRC_BYTE, CRC_OUT only" (R20), a sequencer's registers by the block only (R32, R222). Raised by
  `hostRead`. Safe. -/
  | noHostAccess (r : Reg)
  /-- A host access to a buffer element at or past MAX_LEN, which does not exist (R8, R20, R50; log
  40). Raised by `hostRead` and `hostWrite`. Safe. -/
  | noSuchElement (r : Reg)
  /-- A sequencer met a register without a value. Raised by `txStep` and `rxStep` in states no run
  reaches (log 25). Safe. -/
  | sequencerNoValue (r : Reg)
  deriving DecidableEq, Repr

/-- Why a request is refused (R223): the block gives it no meaning and changes no state. -/
inductive Refusal where
  /-- An instruction without a meaning in this model. Raised by `exec` only. Safe. -/
  | notModelled (mnemonic : String)
  /-- An operation, or a write of a TX register or EXPECT, requested while BUSY = 1 (R31,
  `wf_not_busy` of R121). Raised by every host operation and host write. Safe. -/
  | busy
  /-- SEND or RECV on a link that is not open (R251). Raised by SEND, RECV and the frames SEND
  carries. Safe. -/
  | linkNotOpen
  /-- The operation would read a register that holds no value (R108, R120, R141). Safe. -/
  | noValue (r : Reg)
  /-- `wf_command` of R121. Raised by SEND. Safe. -/
  | wfCommand
  /-- `wf_shape` of R121, and LENGTH past MAX_LEN (R8, log 4). Raised by SEND and WRITE. Safe. -/
  | wfShape
  /-- A configuration outside the spec (R10). Raised by `step`, SEND and RECV. Safe. -/
  | badConfig
  /-- The bytes given as an instruction are no frame (R80, R82). Raised by `perform`. Safe. -/
  | undecodable (e : DecodeError)
  deriving DecidableEq, Repr

/-- The four error kinds of R220. -/
inductive ErrorKind where
  | transportTimeout
  | frameCorruption
  | protocolMismatch
  | transportWriteFailure
  deriving DecidableEq, Repr

/-- `STATUS`: OK or an error kind; codes 5 to 7 are never written (R29). -/
inductive Status where
  | ok
  | error (e : ErrorKind)
  deriving DecidableEq, Repr

/-- `tx_state` (R25). -/
inductive TxState where
  | idle
  | send
  deriving DecidableEq, Repr

/-- `rx_state` (R25). -/
inductive RxState where
  | idle
  | search
  | header
  | data
  | ck
  deriving DecidableEq, Repr

/-- A data buffer (R50): the elements that hold a value, indices strictly rising; an element that is
not listed holds no value (R41). -/
abbrev Buffer := List Host.Cell

/-- A host write of a register the host may write (R20, R32). A write of any other (RX_CMD, RX_ADDR,
RX_LEN, RX_DATA, CRC_ACC, SCAN_CNT, STATUS, RX_VALID, BUSY, a sequencer's) can not be asked for: the
model's choice (log 42). -/
inductive HostWrite where
  | txCmd (b : Byte)
  | txAddr (b : Byte)
  | txLen (b : Byte)
  | txNData (b : Byte)
  | txData (i : Nat) (b : Byte)
  /-- Both fields of EXPECT. -/
  | expect (any : Bool) (cmd : Byte)
  /-- The ANY field alone. -/
  | expectAny (any : Bool)
  deriving DecidableEq, Repr

/-- What a host, or the device through the link, asks of the machine next. Log 5. -/
inductive HostAction where
  /-- An operation, or a frame of the opcode table. -/
  | op (i : Instr)
  /-- An instruction given by its covered bytes (log 14). -/
  | word (dir : Direction) (bytes : List Byte)
  | write (w : HostWrite)
  | read (r : Reg)
  /-- The construction of the link's owner (R206, R251). -/
  | openLink
  /-- Its teardown. -/
  | closeLink
  /-- Reset (R41, R42). -/
  | reset
  deriving DecidableEq, Repr

/-- A pending request. SR's host waits for the operation in flight (R11, R64); one that does not is
what R31 refuses. Log 7. -/
structure HostRequest where
  waits : Bool
  act : HostAction
  deriving DecidableEq, Repr

structure State where
  /-- The parameters of R8; no step changes them. -/
  cfg : Config
  -- operand and result registers (R20)
  txCmd : Option Byte
  txAddr : Option Byte
  txLen : Option Byte
  txNData : Option Byte
  txData : Buffer
  rxCmd : Option Byte
  rxAddr : Option Byte
  rxLen : Option Byte
  rxData : Buffer
  crcAcc : Option Code
  -- sequencers (R25)
  txState : TxState
  txIdx : Nat
  txFrameLen : Nat
  txCrc : Option Code
  rxState : RxState
  rxIdx : Nat
  rxCrc : Option Code
  rxCkLo : Option Byte
  rxCkHi : Option Byte
  -- flags and control registers (R28, R32)
  rxValid : Bool
  status : Status
  expectAny : Bool
  expectCmd : Option Byte
  scanCnt : Nat
  sawSync1 : Bool
  -- the link (R36 to R40, R251)
  linkOpen : Bool
  linkIn : List GetAnswer
  linkGets : Nat
  putAnswers : List PutAnswer
  linkPuts : Nat
  linkOut : List Byte
  -- the host's side
  host : List HostRequest
  result : Option Code
  deriving DecidableEq, Repr

/-- The machine right after reset: R41's table, which the spec marks as its own choice (D19). "no
value" is R41's own word for a register that has not been written (log 1). The link, the host's
requests and `result` are not in that table (log 2). -/
def State.reset : State where
  cfg := Config.default
  txCmd := none
  txAddr := none
  txLen := none
  txNData := none
  txData := []
  rxCmd := none
  rxAddr := none
  rxLen := none
  rxData := []
  crcAcc := none
  txState := .idle
  txIdx := 0
  txFrameLen := 0
  txCrc := none
  rxState := .idle
  rxIdx := 0
  rxCrc := none
  rxCkLo := none
  rxCkHi := none
  rxValid := false
  status := .ok
  expectAny := true
  expectCmd := none
  scanCnt := 0
  sawSync1 := false
  linkOpen := true
  linkIn := []
  linkGets := 0
  putAnswers := []
  linkPuts := 0
  linkOut := []
  host := []
  result := none

/-- What one step, operation or access answers. -/
abbrev Out := Host.Outcome State Fault Refusal

end Sys2Proof.Machine
end

