-- ==== Sys2Proof/Machine/Flags.lean ====
section
/-! DEFINITION. The flags: BUSY, STATUS and RX_VALID (10_state.md section 3). There are no arithmetic
condition codes (R28). -/

namespace Sys2Proof.Machine

/-- `BUSY`, derived and not stored: `tx_state ≠ T_IDLE or rx_state ≠ R_IDLE` (R28). -/
def State.busy (s : State) : Bool := s.txState != .idle || s.rxState != .idle

/-- The code of an error kind (R221). -/
def ErrorKind.code : ErrorKind → BitVec 3
  | .transportTimeout => 1
  | .frameCorruption => 2
  | .protocolMismatch => 3
  | .transportWriteFailure => 4

/-- The three bits of STATUS (R29, R221). -/
def Status.code : Status → BitVec 3
  | .ok => 0
  | .error e => e.code

/-- The two received checksum bytes against the recomputed code: the conjunction of both
comparisons (R154). -/
def checksumOk (crc : Code) (lo hi : Byte) : Bool :=
  lo == lo8 (rev16 crc) && hi == hi8 (rev16 crc)

/-- The expected-command test passes (R156): any command, or the one expected. -/
def commandExpected (any : Bool) (expected cmd : Byte) : Bool := any || cmd == expected

/-- `TX_CMD` is one of the three command values (R121 `wf_command`). -/
def wfCommand (c : Config) (cmd : Byte) : Bool :=
  cmd == c.cmdRead || cmd == c.cmdWrite || cmd == c.cmdAngleTlm

/-- `TX_NDATA = TX_LEN`, or a read request without data (R121 `wf_shape`), with LENGTH at most MAX_LEN,
"greatest value of `LENGTH`" (R8; by default every byte is; log 4). -/
def wfShape (c : Config) (cmd len ndata : Byte) : Bool :=
  decide (len.toNat ≤ c.maxLen) && (ndata == len || (cmd == c.cmdRead && ndata == 0))

end Sys2Proof.Machine
end

