-- ==== Sys2Proof/Machine/Ops.lean ====
section
/-! DEFINITION. The named operations over the data buffers, the link and the sequencers, with the one
operation that raises an error (R224). -/

namespace Sys2Proof.Machine

/-- Sequencing of outcomes. -/
def andThen {α : Type} (o : Out) (f : State → Host.Outcome α Fault Refusal) :
    Host.Outcome α Fault Refusal :=
  match o with
  | .next s => f s
  | .fault e => .fault e
  | .refused e => .refused e

/-! ### Data buffers (R50) -/

/-- Element `i`, if it holds a value. -/
def Buffer.read : Buffer → Nat → Option Byte
  | [], _ => none
  | (a, b) :: m, i => if a = i then some b else Buffer.read m i

/-- Element `i` takes the value `b`; the list stays in rising order. -/
def Buffer.write : Buffer → Nat → Byte → Buffer
  | [], i, b => [(i, b)]
  | (a, c) :: m, i, b =>
    if i < a then (i, b) :: (a, c) :: m
    else if i = a then (i, b) :: m
    else (a, c) :: Buffer.write m i b

/-- Element `i` of a buffer of `size` elements takes the value `b`; past the end there is none to take
it. -/
def Buffer.store (size : Nat) (m : Buffer) (i : Nat) (b : Byte) : Buffer :=
  if i < size then m.write i b else m

/-- Consecutive elements from `i` take the bytes of a list. -/
def Buffer.writeFrom (m : Buffer) : Nat → List Byte → Buffer
  | _, [] => m
  | i, b :: bs => Buffer.writeFrom (m.write i b) (i + 1) bs

/-- `n` consecutive elements from `i`, if all of them hold a value. -/
def Buffer.readFrom (m : Buffer) (i : Nat) : Nat → Option (List Byte)
  | 0 => some []
  | n + 1 =>
    match m.read i, Buffer.readFrom m (i + 1) n with
    | some b, some l => some (b :: l)
    | _, _ => none

/-- Elements `0 .. n-1`, if all of them hold a value. -/
def Buffer.readRange (m : Buffer) (n : Nat) : Option (List Byte) := m.readFrom 0 n

/-- The indices listed are at least `i`, strictly rising, and below `size`. -/
def Buffer.wfFrom (size : Nat) : Buffer → Nat → Bool
  | [], _ => true
  | (a, _) :: m, i => decide (i ≤ a) && decide (a < size) && Buffer.wfFrom size m (a + 1)

/-- The canonical form of a data buffer of `size` elements. An element not listed holds no value, which
no entry can equal. -/
def Buffer.wf (size : Nat) (m : Buffer) : Bool := Buffer.wfFrom size m 0

/-! ### The link port (R36) -/

/-- One `LinkGet()`: consumes the next inbound answer (R38, R62). After the answers the state lists,
the environment is free (R13, log 3). -/
def linkGet (s : State) : GetAnswer × State :=
  match s.linkIn with
  | a :: rest => (a, { s with linkIn := rest, linkGets := s.linkGets + 1 })
  | [] => (Config.freeGet s.linkGets, { s with linkGets := s.linkGets + 1 })

/-- The outbound side's next answer (R13, log 3). -/
def nextPut (s : State) : PutAnswer :=
  match s.putAnswers with
  | a :: _ => a
  | [] => Config.freePut s.linkPuts

/-- One `LinkPut(b)`: an accepted byte has left the block (R40, R127), a rejected one has not. -/
def linkPut (b : Byte) (s : State) : PutAnswer × State :=
  match nextPut s with
  | .accepted =>
    (.accepted,
      { s with
        putAnswers := s.putAnswers.tail, linkPuts := s.linkPuts + 1
        linkOut := s.linkOut ++ [b] })
  | .rejected =>
    (.rejected, { s with putAnswers := s.putAnswers.tail, linkPuts := s.linkPuts + 1 })

/-- Bytes that arrive stand behind what the inbound side already holds, in arrival order (R38, R65),
whether the link is open or not: the model's choice for one that is not (log 11). -/
def linkArrive (bytes : List Byte) (s : State) : State :=
  { s with linkIn := s.linkIn ++ bytes.map .byte }

/-! ### The end of an operation (R29) -/

/-- The two operations that can raise an error (R220). -/
inductive BlockOp where
  | send
  | recv
  deriving DecidableEq, Repr

/-- `raise E` (R224), with the state after an error (R225): STATUS takes the code, the sequencer of
the operation goes idle with its index cleared, RX_VALID is 0 for RECV and the result registers then
hold no value, the private checksum registers hold no value (log 18). Nothing is saved: there is no
trap vector, no saved state, no mode change. There is no return operation either (R227): the block is
idle and the host's next request is taken. -/
def raise (o : BlockOp) (e : ErrorKind) (s : State) : State :=
  match o with
  | .send =>
    { s with status := .error e, txState := .idle, txIdx := 0, txCrc := none, rxCrc := none }
  | .recv =>
    { s with status := .error e, rxState := .idle, rxIdx := 0, rxValid := false,
             rxCmd := none, rxAddr := none, rxLen := none, rxData := [],
             rxCkLo := none, rxCkHi := none, txCrc := none, rxCrc := none }

/-- The end of a SEND without error (R126). The operand registers keep their values. -/
def completeSend (s : State) : State := { s with status := .ok, txState := .idle, txIdx := 0 }

/-- The end of a RECV without error (R157). -/
def completeRecv (s : State) : State :=
  { s with status := .ok, rxValid := true, rxState := .idle, rxIdx := 0 }

/-- Reset as an event: the block's registers take R41's values and nothing survives (R42); the link,
its inbound bytes, the parameters and the host are not the block's (R41, log 26). -/
def resetBlock (s : State) : State :=
  { State.reset with
    cfg := s.cfg, linkOpen := s.linkOpen, linkIn := s.linkIn, linkGets := s.linkGets,
    putAnswers := s.putAnswers, linkPuts := s.linkPuts, linkOut := s.linkOut,
    host := s.host, result := s.result }

end Sys2Proof.Machine
end

