-- ==== Sys2Proof/Machine/Operands.lean ====
section
/-! DEFINITION. The operands: the registers as the host reads and writes them, the operands of SEND
with R121's checks, and the bytes of the frame SEND emits (R122). -/

namespace Sys2Proof.Machine

/-- A one-bit register as a host value. -/
def ofFlag (b : Bool) : Code := if b then 1 else 0

/-- The value of a register, if it holds one, zero-extended to 16 bits (log 22). The result registers
hold no value while RX_VALID = 0, and `RX_DATA[i]` holds none for `i ≥ RX_LEN` (R24, R157). EXPECT is
read whole (R32), and then holds a value only where CMD does, or one field alone: the model's choice
(log 21). -/
def State.regValue (s : State) : Reg → Option Code
  | .txCmd => s.txCmd.map (·.setWidth 16)
  | .txAddr => s.txAddr.map (·.setWidth 16)
  | .txLen => s.txLen.map (·.setWidth 16)
  | .txNData => s.txNData.map (·.setWidth 16)
  | .txData i => (s.txData.read i).map (·.setWidth 16)
  | .rxCmd => if s.rxValid then s.rxCmd.map (·.setWidth 16) else none
  | .rxAddr => if s.rxValid then s.rxAddr.map (·.setWidth 16) else none
  | .rxLen => if s.rxValid then s.rxLen.map (·.setWidth 16) else none
  | .rxData i => if s.rxValid then (s.rxData.read i).map (·.setWidth 16) else none
  | .expect => s.expectCmd.map fun c => (BitVec.ofBool s.expectAny ++ c).setWidth 16
  | .expectAny => some (ofFlag s.expectAny)
  | .expectCmd => s.expectCmd.map (·.setWidth 16)
  | .scanCnt => some (BitVec.ofNat 16 s.scanCnt)
  | .status => some (s.status.code.setWidth 16)
  | .rxValid => some (ofFlag s.rxValid)
  | .busy => some (ofFlag s.busy)
  | .crcAcc => none
  | .sequencer => none

/-- The register names a buffer element at or past MAX_LEN. With a MAX_LEN above 255 the elements past
254 exist for the host (log 4). -/
def Reg.missing (size : Nat) : Reg → Bool
  | .txData i => decide (size ≤ i)
  | .rxData i => decide (size ≤ i)
  | _ => false

/-- The host can read the register: not `CRC_ACC`, which is reached through its operations only, and
not a sequencer's (R20, R32, R222). -/
def Reg.hostReadable : Reg → Bool
  | .crcAcc => false
  | .sequencer => false
  | _ => true

/-- A host read: the value goes to the host. A register that holds no value faults (R24, R41, log 20).
No access asks for a legal configuration of itself; `step` does (log 38). -/
def hostRead (r : Reg) (s : State) : Out :=
  if r.missing s.cfg.maxLen then .fault (.noSuchElement r)
  else if !r.hostReadable then .fault (.noHostAccess r)
  else
    match s.regValue r with
    | some v => .next { s with result := some v }
    | none => .fault (.readNoValue r)

/-- A host write, while the block is not busy (R31). TX_DATA has MAX_LEN elements, whatever MAX_LEN is
(log 4). No access asks for a legal configuration of itself; `step` does (log 38). -/
def hostWrite (w : HostWrite) (s : State) : Out :=
  if s.busy then .refused .busy
  else
    match w with
    | .txCmd b => .next { s with txCmd := some b }
    | .txAddr b => .next { s with txAddr := some b }
    | .txLen b => .next { s with txLen := some b }
    | .txNData b => .next { s with txNData := some b }
    | .txData i b =>
      if i < s.cfg.maxLen then .next { s with txData := s.txData.write i b }
      else .fault (.noSuchElement (.txData i))
    | .expect any cmd => .next { s with expectAny := any, expectCmd := some cmd }
    | .expectAny any => .next { s with expectAny := any }

/-- The operands of a SEND, written by the host before it: `SEND cmd, addr, len, data` of R86 sets
the four registers and the first `|data|` elements of TX_DATA. -/
def loadTx (cmd addr len : Byte) (data : List Byte) (s : State) : State :=
  { s with
    txCmd := some cmd, txAddr := some addr, txLen := some len,
    txNData := some (BitVec.ofNat 8 data.length), txData := s.txData.writeFrom 0 data }

/-- The lowest element below `n` that holds no value. -/
def Buffer.firstMissing (m : Buffer) : Nat → Option Nat
  | 0 => none
  | n + 1 =>
    match Buffer.firstMissing m n with
    | some i => some i
    | none => if (m.read n).isSome then none else some n

/-- The operands SEND reads, all of them holding a value (R120). -/
structure TxOperands where
  cmd : Byte
  addr : Byte
  len : Byte
  ndata : Byte
  data : List Byte
  deriving DecidableEq, Repr

/-- The operand registers as SEND reads them; a register without a value refuses the SEND (R120). -/
def txOperands (s : State) : Except Refusal TxOperands :=
  match s.txCmd, s.txAddr, s.txLen, s.txNData with
  | some cmd, some addr, some len, some n =>
    match s.txData.readRange n.toNat with
    | some data => .ok ⟨cmd, addr, len, n, data⟩
    | none => .error (.noValue (.txData ((s.txData.firstMissing n.toNat).getD 0)))
  | none, _, _, _ => .error (.noValue .txCmd)
  | _, none, _, _ => .error (.noValue .txAddr)
  | _, _, none, _ => .error (.noValue .txLen)
  | _, _, _, none => .error (.noValue .txNData)

/-- What an operation on the link needs: a configuration the spec is written for (R10), an open link
(R251) and an idle block (R31). -/
def linkReady (s : State) : Except Refusal Unit :=
  if !s.cfg.legal then .error .badConfig
  else if !s.linkOpen then .error .linkNotOpen
  else if s.busy then .error .busy
  else .ok ()

/-- R121: a SEND is carried out only if its checks hold. -/
def sendCheck (s : State) : Except Refusal TxOperands :=
  match linkReady s with
  | .error r => .error r
  | .ok () =>
    match txOperands s with
    | .error r => .error r
    | .ok f =>
      if !wfCommand s.cfg f.cmd then .error .wfCommand
      else if !wfShape s.cfg f.cmd f.len f.ndata then .error .wfShape
      else .ok f

/-- R141: a RECV is carried out only if EXPECT holds a value; with ANY = 1 the CMD field need not. -/
def recvCheck (s : State) : Except Refusal Unit :=
  match linkReady s with
  | .error r => .error r
  | .ok () =>
    if !s.expectAny && s.expectCmd.isNone then .error (.noValue .expectCmd) else .ok ()

/-- `F(k)` of R122 as R124 offers it: the header from the parameters and the operand registers, the
data unchanged, the checksum bytes from TX_CRC. -/
def txByte (s : State) (n k : Nat) : Option Byte :=
  if k = 0 then some s.cfg.sync1
  else if k = 1 then some s.cfg.sync2
  else if k = 2 then s.txCmd
  else if k = 3 then s.txAddr
  else if k = 4 then s.txLen
  else if k < 5 + n then s.txData.read (k - 5)
  else if k = 5 + n then s.txCrc.map fun c => lo8 (rev16 c)
  else if k = 6 + n then s.txCrc.map fun c => hi8 (rev16 c)
  else none

end Sys2Proof.Machine
end

