-- ==== Sys2Proof/Machine/Checksum.lean ====
section
/-! DEFINITION. The stand-alone checksum operations (40_checksum.md section 2). None writes a flag or
raises an error. Each starts and completes in one step, which the model chooses (log 44). An operation
requested while BUSY = 1 is refused (R31, D22, log 8). -/

namespace Sys2Proof.Machine

/-- CRC_INIT (R105). -/
def execCrcInit (s : State) : Out :=
  if s.busy then .refused .busy else .next { s with crcAcc := some s.cfg.crcInit }

/-- CRC_BYTE (R106); refused before the first CRC_INIT (R108). -/
def execCrcByte (b : Byte) (s : State) : Out :=
  if s.busy then .refused .busy
  else
    match s.crcAcc with
    | none => .refused (.noValue .crcAcc)
    | some reg => .next { s with crcAcc := some (byteStep s.cfg.crcPoly reg b) }

/-- CRC_OUT (R107): CRC_ACC is not changed; refused before the first CRC_INIT (R108). -/
def execCrcOut (s : State) : Out :=
  if s.busy then .refused .busy
  else
    match s.crcAcc with
    | none => .refused (.noValue .crcAcc)
    | some reg => .next { s with result := some (rev16 reg) }

/-- CHECKSUM (R109): "exactly `CRC_INIT; CRC_BYTE s[0]; ...; CRC_OUT`", so CRC_ACC ends as the last
CRC_BYTE leaves it (log 9). The whole sequence, of any length, is one step: the model's choice (log
44). -/
def execChecksum (bytes : List Byte) (s : State) : Out :=
  if s.busy then .refused .busy
  else .next { s with crcAcc := some (crcReg s.cfg.crcPoly s.cfg.crcInit bytes),
                      result := some (crc16 s.cfg bytes) }

end Sys2Proof.Machine
end

