-- ==== Sys2Proof/Machine/Deserializer.lean ====
section
/-! DEFINITION. The deserializer (42_deserializer.md): the start of RECV and one step of it for each
answer of the link's inbound side. -/

namespace Sys2Proof.Machine

/-- Start of RECV (R142): a fresh search; the result registers hold no value from here on. -/
def startRecv (s : State) : State :=
  { s with
    rxValid := false, scanCnt := 0, sawSync1 := false, rxIdx := 0, rxState := .search
    rxCmd := none, rxAddr := none, rxLen := none, rxData := [], rxCkLo := none, rxCkHi := none }

/-- RECV (R140, R141): its start, when the checks hold. -/
def execRecv (s : State) : Out :=
  match recvCheck s with
  | .error r => .refused r
  | .ok () => .next (startRecv s)

/-- Sync found (R149): the checksum starts from the two sync bytes of the match. -/
def syncFound (s : State) : State :=
  { s with
    rxCrc := some (crcReg s.cfg.crcPoly s.cfg.crcInit [s.cfg.sync1, s.cfg.sync2])
    rxIdx := 0, rxState := .header }

/-- An attempt of the search and its answer (R144, R146, R148): a sliding two-byte window; a timeout
counts and disarms the window. -/
def searchStep (a : GetAnswer) (s : State) : State :=
  let s1 := { s with scanCnt := s.scanCnt + 1 }
  match a with
  | .timeout => { s1 with sawSync1 := false }
  | .byte b =>
    if s1.sawSync1 = true ∧ b = s1.cfg.sync2 then syncFound s1
    else { s1 with sawSync1 := b == s1.cfg.sync1 }

/-- A header byte (R150): no value is rejected. -/
def headerStep (b : Byte) (s : State) : State :=
  let s1 := { s with rxCrc := s.rxCrc.map (byteStep s.cfg.crcPoly · b) }
  if s.rxIdx = 0 then { s1 with rxCmd := some b, rxIdx := 1 }
  else if s.rxIdx = 1 then { s1 with rxAddr := some b, rxIdx := 2 }
  else { s1 with
    rxLen := some b, rxIdx := 0, rxState := if 0 < b.toNat then .data else .ck }

/-- A data byte (R152): stored whatever it is, in the element its index names. With MAX_LEN below 255
the link can deliver more data than RX_DATA has elements: every byte is read (R151) and enters RX_CRC,
and one past the end has no element to be stored in (log 4). -/
def dataStep (len : Byte) (b : Byte) (s : State) : State :=
  let s1 := { s with
    rxCrc := s.rxCrc.map (byteStep s.cfg.crcPoly · b)
    rxData := s.rxData.store s.cfg.maxLen s.rxIdx b }
  if s.rxIdx + 1 = len.toNat then { s1 with rxIdx := 0, rxState := .ck }
  else { s1 with rxIdx := s.rxIdx + 1 }

/-- The tests after the second checksum byte: the checksum (R154, R155), then the expected command
(R156), then success (R157). -/
def finishRecv (crc : Code) (lo hi cmd expected : Byte) (s : State) : State :=
  if !checksumOk crc lo hi then raise .recv .frameCorruption s
  else if !commandExpected s.expectAny expected cmd then raise .recv .protocolMismatch s
  else completeRecv s

/-- A checksum byte (R153): neither enters RX_CRC, and both are read before any comparison. -/
def ckStep (b : Byte) (s : State) : Out :=
  if s.rxIdx = 0 then .next { s with rxCkLo := some b, rxIdx := 1 }
  else
    let s1 := { s with rxCkHi := some b, rxIdx := 2 }
    match s1.rxCrc, s1.rxCkLo, s1.rxCmd with
    | some crc, some lo, some cmd =>
      if s1.expectAny = false ∧ s1.expectCmd = none then .fault (.sequencerNoValue .expectCmd)
      else .next (finishRecv crc lo b cmd (s1.expectCmd.getD 0) s1)
    | _, _, _ => .fault (.sequencerNoValue .sequencer)

/-- What an answer outside the search does: a timeout ends RECV at once (R158). -/
def onByte (f : Byte → State → Out) (a : GetAnswer) (s : State) : Out :=
  match a with
  | .timeout => .next (raise .recv .transportTimeout s)
  | .byte b => f b s

/-- One step of RECV. In the search, the cap ends it without a further attempt (R144, R147, log 17). -/
def rxStep (s : State) : Out :=
  match s.rxState with
  | .idle => .next s
  | .search =>
    if s.cfg.syncCap ≤ s.scanCnt then .next (raise .recv .transportTimeout s)
    else .next (searchStep (linkGet s).1 (linkGet s).2)
  | .header => onByte (fun b s1 => .next (headerStep b s1)) (linkGet s).1 (linkGet s).2
  | .data =>
    match s.rxLen with
    | none => .fault (.sequencerNoValue .rxLen)
    | some len => onByte (fun b s1 => .next (dataStep len b s1)) (linkGet s).1 (linkGet s).2
  | .ck => onByte ckStep (linkGet s).1 (linkGet s).2

end Sys2Proof.Machine
end

