-- ==== Sys2Proof/Machine/Serializer.lean ====
section
/-! DEFINITION. The serializer (41_serializer.md): the start of SEND and one step of it for each answer
of the link's outbound side. -/

namespace Sys2Proof.Machine

/-- Start of SEND (R123). -/
def startSend (n : Nat) (s : State) : State :=
  { s with txFrameLen := 5 + n + 2, txCrc := some s.cfg.crcInit, txIdx := 0, txState := .send }

/-- SEND (R120, R121): its start, when the checks hold. -/
def execSend (s : State) : Out :=
  match sendCheck s with
  | .error r => .refused r
  | .ok f => .next (startSend f.ndata.toNat s)

/-- An accepted byte `k` of a frame with `n` data bytes (R124): a covered byte enters TX_CRC, the
index moves on, and the last byte ends the operation (R126, R129, log 16). -/
def txAccepted (n k : Nat) (b : Byte) (s : State) : State :=
  let s1 := { s with
    txCrc := if k < 5 + n then s.txCrc.map (byteStep s.cfg.crcPoly · b) else s.txCrc
    txIdx := k + 1 }
  if k + 1 = s1.txFrameLen then completeSend s1 else s1

/-- One step of SEND (R124). A rejected byte ends it at once (R127), with no retry (R128). -/
def txStep (s : State) : Out :=
  if s.txFrameLen ≤ s.txIdx then .next (completeSend s)
  else
    match s.txNData with
    | none => .fault (.sequencerNoValue .txNData)
    | some n =>
      match txByte s n.toNat s.txIdx with
      | none => .fault (.sequencerNoValue .sequencer)
      | some b =>
        match linkPut b s with
        | (.accepted, s1) => .next (txAccepted n.toNat s.txIdx b s1)
        | (.rejected, s1) => .next (raise .send .transportWriteFailure s1)

end Sys2Proof.Machine
end

