-- ==== Sys2Proof/Machine/Frames.lean ====
section
/-! DEFINITION. The four frame kinds (43_frame_commands.md section 1). A frame of the request direction
is the SEND that carries it (log 10); a frame of the response direction arrives on the link's inbound
side, where a RECV may consume it (log 11). None writes a flag of its own. -/

namespace Sys2Proof.Machine

/-- READ_REQ (R170): `SEND CMD_READ, addr, len, []`. -/
def execReadReq (addr len : Byte) (s : State) : Out :=
  if s.busy then .refused .busy else execSend (loadTx s.cfg.cmdRead addr len [] s)

/-- WRITE (R172): `SEND CMD_WRITE, addr, len, data` with `|data| = len`. -/
def execWrite (addr len : Byte) (data : List Byte) (s : State) : Out :=
  if s.busy then .refused .busy
  else if !dataFits len data then .refused .wfShape
  else execSend (loadTx s.cfg.cmdWrite addr len data s)

/-- READ_ACK (R171): the device's answer stands on the link, behind what is already there. It asks
nothing of the configuration, which `step` does (log 38), nor that the link is open (log 11). -/
def execReadAck (addr len : Byte) (data : List Byte) (s : State) : Out :=
  .next (linkArrive (frameBytes s.cfg s.cfg.cmdRead addr len data) s)

/-- ANGLE_TLM (R173): an unsolicited frame stands unread on the link (R231) until a RECV consumes it. It
asks nothing of the configuration, which `step` does (log 38), nor that the link is open (log 11). -/
def execAngleTlm (addr len : Byte) (data : List Byte) (s : State) : Out :=
  .next (linkArrive (frameBytes s.cfg s.cfg.cmdAngleTlm addr len data) s)

end Sys2Proof.Machine
end

