-- ==== Sys2Proof/Machine/Dispatch.lean ====
section
/-! DEFINITION. One arm for each row of spec/opcode_table.json. -/

namespace Sys2Proof.Machine

def exec (i : Instr) (s : State) : Host.Outcome State Fault Refusal :=
  match i with
  | .readReq addr len => Sys2Proof.Machine.execReadReq addr len s
  | .readAck addr len data => Sys2Proof.Machine.execReadAck addr len data s
  | .write addr len data => Sys2Proof.Machine.execWrite addr len data s
  | .angleTlm addr len data => Sys2Proof.Machine.execAngleTlm addr len data s
  | .crcInit => Sys2Proof.Machine.execCrcInit s
  | .crcByte b => Sys2Proof.Machine.execCrcByte b s
  | .crcOut => Sys2Proof.Machine.execCrcOut s
  | .checksum bytes => Sys2Proof.Machine.execChecksum bytes s
  | .send => Sys2Proof.Machine.execSend s
  | .recv => Sys2Proof.Machine.execRecv s

end Sys2Proof.Machine
end

