-- ==== Sys2Proof/Machine/HostPort.lean ====
section
/-! DEFINITION. The host's requests: operations, instructions given by their bytes, register accesses,
the life of the link, reset. And the move of a busy block. -/

namespace Sys2Proof.Machine

/-- The link's owner opens or closes it between operations (R206, R251). Opening an open link and closing
a closed one change nothing, and a closed link can be opened again, though R250 has it opened once and
closed on teardown: the model's choice (log 27). -/
def setLink (b : Bool) (s : State) : Out :=
  if s.busy then .refused .busy else .next { s with linkOpen := b }

/-- One request of the host. An instruction given by its bytes is decoded and executed. -/
def perform (a : HostAction) (s : State) : Out :=
  match a with
  | .op i => exec i s
  | .word dir bytes =>
    match decode s.cfg dir bytes with
    | .ok (i, _) => exec i s
    | .error e => .refused (.undecodable e)
  | .write w => hostWrite w s
  | .read r => hostRead r s
  | .openLink => setLink true s
  | .closeLink => setLink false s
  | .reset => .next (resetBlock s)

/-- The step of a busy block: the sequencer in flight moves by one link answer (R25). -/
def seqStep (s : State) : Out :=
  match s.txState with
  | .send => txStep s
  | .idle => rxStep s

/-- The host's requests come first only when the block is idle or the host does not wait for it
(R11, R31, log 7). -/
def takesRequest (s : State) (r : HostRequest) : Bool := !s.busy || !r.waits

end Sys2Proof.Machine
end

