-- ==== Sys2Proof/Machine/Step.lean ====
section
/-! DEFINITION. One step (R11): the start of a host operation or access, or one answer of the link. -/

namespace Sys2Proof.Machine

/-- A configuration outside the spec is refused (R10). A request is taken off the queue before it is
performed. A block that is idle with nothing asked of it stays as it is (log 23). -/
def step (s : State) : Host.Outcome State Fault Refusal :=
  if !s.cfg.legal then .refused .badConfig
  else
    match s.host with
    | [] => if s.busy then seqStep s else .next s
    | r :: rest =>
      if takesRequest s r then perform r.act { s with host := rest } else seqStep s

/-- Puts the instruction of a word of the opcode table before the host's requests, as a request that
does not wait, so that the next step takes it (log 5, 13, 14). -/
def State.withFetchWord (s : State) (nbits w : Nat) : State :=
  { s with host := ⟨false, .word .hostToDevice (tableBytes nbits w)⟩ :: s.host }

end Sys2Proof.Machine
end

