-- ==== Sys2Proof/Machine/Environment.lean ====
section
/-! DEFINITION. What the frames ask of the device's register space (43_frame_commands.md section 1) and
what SR says the device does (section 3). The device is unconstrained (R13): these are premises for a
statement about a whole transaction, never part of a step. -/

namespace Sys2Proof.Machine

/-- The remote register space has 256 one-byte registers (R51); one that is not listed has an unknown
value (91 N6). -/
def remoteSize : Nat := 256

/-- `MemRead(addr, len)` (R170). What a request past register 255 does is not in SR (R59): no value
(log 37). -/
def remoteRead (m : Buffer) (addr len : Byte) : Option (List Byte) :=
  if addr.toNat + len.toNat ≤ remoteSize then m.readFrom addr.toNat len.toNat else none

/-- `MemWrite(addr, n, data)`: register `addr + i` takes `data[i]` (R172). Past register 255: not in SR
(log 37). -/
def remoteWrite (m : Buffer) (addr : Byte) (data : List Byte) : Option Buffer :=
  if addr.toNat + data.length ≤ remoteSize then some (m.writeFrom addr.toNat data) else none

/-- Whether the device accepts a write (R172, R195): not to Identity, to Configuration only while the
write-lock flag is 0, to Runtime always. -/
def deviceAccepts (region : Region) (locked : Bool) : Bool :=
  match region with
  | .identity => false
  | .configuration => !locked
  | .runtime => true

/-- What a frame asks of the register space (R170 to R173): a read request asks for values, a write
asks for a change; an acknowledgment and a telemetry frame report values at their address. -/
inductive FrameMeaning where
  | asksRead (addr len : Byte)
  | asksWrite (addr : Byte) (data : List Byte)
  | reports (addr : Byte) (data : List Byte)
  deriving DecidableEq, Repr

def frameMeaning : Instr → Option FrameMeaning
  | .readReq addr len => some (.asksRead addr len)
  | .readAck addr _ data => some (.reports addr data)
  | .write addr _ data => some (.asksWrite addr data)
  | .angleTlm addr _ data => some (.reports addr data)
  | .crcInit => none
  | .crcByte _ => none
  | .crcOut => none
  | .checksum _ => none
  | .send => none
  | .recv => none

/-- ENV_DEVICE_RX: the device's checksum function is the block's, which no source shows of the physical
arm; it is the named premise 93 U1 (R116) asks for (log 46). What the device's receiver does with noise,
a bad checksum, a truncated frame or a reserved command is not in SR (R182), and nothing is assumed of
it. -/
def EnvDeviceRx (c : Config) (deviceCrc : List Byte → Code) : Prop :=
  ∀ bytes, deviceCrc bytes = crc16 c bytes

/-- A frame as the device makes it: R70's, its checksum from the device's own function (93 U1, log 46). -/
def deviceFrame (c : Config) (deviceCrc : List Byte → Code) (cmd addr len : Byte)
    (data : List Byte) : List Byte :=
  covered c cmd addr len data ++
    [lo8 (deviceCrc (covered c cmd addr len data)), hi8 (deviceCrc (covered c cmd addr len data))]

/-- One whole format D frame of the device. -/
def IsFrame (c : Config) (deviceCrc : List Byte → Code) (bytes : List Byte) : Prop :=
  ∃ cmd addr len data, dataFits len data = true ∧ bytes = deviceFrame c deviceCrc cmd addr len data

/-- ENV_ONE_RESPONSE (R178): one response frame or none. -/
def EnvOneResponse (c : Config) (deviceCrc : List Byte → Code) (response : List Byte) : Prop :=
  response = [] ∨ IsFrame c deviceCrc response

/-- ENV_ACK_SHAPE (R179, an assumption of the spec's own, D23): the response to READ_REQ is one
READ_ACK that repeats the address and the length and carries the register values. -/
def EnvAckShape (c : Config) (deviceCrc : List Byte → Code) (m : Buffer) (addr len : Byte)
    (response : List Byte) : Prop :=
  ∃ data, remoteRead m addr len = some data ∧
    response = deviceFrame c deviceCrc c.cmdRead addr len data

/-- ENV_NO_WRITE_ACK (R180). -/
def EnvNoWriteAck (response : List Byte) : Prop := response = []

/-- An ANGLE_TLM frame as R173 describes it: seven angles in degrees at the angle-feedback base
address. -/
def IsTelemetry (c : Config) (deviceCrc : List Byte → Code) (bytes : List Byte) : Prop :=
  ∃ data : List Byte, data.length = 7 ∧ (∀ a ∈ data, a.toNat ≤ 180) ∧
    bytes = deviceFrame c deviceCrc c.cmdAngleTlm (Config.devAddr .angleFb) 7 data

/-- What the device puts on the link, one whole frame at a time. -/
inductive Emission where
  | response (bytes : List Byte)
  | telemetry (bytes : List Byte)
  deriving DecidableEq, Repr

def Emission.bytes : Emission → List Byte
  | .response b => b
  | .telemetry b => b

def Emission.asResponse : Emission → Option (List Byte)
  | .response b => some b
  | .telemetry _ => none

/-- The bytes an answer delivers. -/
def GetAnswer.bytes : GetAnswer → List Byte
  | .byte b => [b]
  | .timeout => []

/-- ENV_TELEMETRY (R173, R181) over the inbound answers: the bytes delivered are the device's
responses, in their order, with telemetry frames at any place among them, each frame's bytes
contiguous; none with rate 0, only ANGLE_TLM frames with a rate of 1 to 50. Of a rate of 51 to 255 the
spec says nothing (R199, 91 N20), and the premise says nothing of what the telemetry then is: log 41. -/
def EnvTelemetry (c : Config) (deviceCrc : List Byte → Code) (rate : Byte)
    (responses : List (List Byte)) (inbound : List GetAnswer) : Prop :=
  ∃ emissions : List Emission,
    inbound.flatMap GetAnswer.bytes = emissions.flatMap Emission.bytes ∧
    emissions.filterMap Emission.asResponse = responses ∧
    (rate = 0 → ∀ b, Emission.telemetry b ∉ emissions) ∧
    (1 ≤ rate.toNat → rate.toNat ≤ 50 →
      ∀ b, Emission.telemetry b ∈ emissions → IsTelemetry c deviceCrc b)

end Sys2Proof.Machine
end

