-- ==== Sys2Proof/Machine/Transactions.lean ====
section
/-! DEFINITION. Whole operations as the host sees them, which block until they complete (R11, R64), and
the transactions built from them (43_frame_commands.md section 2). -/

namespace Sys2Proof.Machine

/-- Why a host call has no value: the operation's error kind, passed on unchanged (R174, R207), or an
answer whose shape is not the one asked for (log 31). -/
inductive HostError where
  | link (e : ErrorKind)
  | shape
  deriving DecidableEq, Repr

/-- What a host call answers: a value or an error, and the machine after it. -/
abbrev HostOut (α : Type) := Host.Outcome (Except HostError α × State) Fault Refusal

/-- Enough steps for any operation, LENGTH being one byte: a RECV makes at most SYNC_CAP + 3 + 255 + 2
calls (R160) and one step that raises the cap's error, a SEND at most 5 + 255 + 2 (R129). -/
def opBound (c : Config) : Nat := c.syncCap + (5 + 255 + 2)

/-- Moves the sequencer until the block is idle, at most `k` times. -/
def runToIdle : Nat → State → Out
  | 0, s => .next s
  | k + 1, s => if s.busy then andThen (seqStep s) (runToIdle k) else .next s

/-- An operation from its start to its completion. -/
def blocking (i : Instr) (s : State) : Out :=
  andThen (exec i s) fun s1 => runToIdle (opBound s1.cfg) s1

/-- The outcome the host reads from STATUS (R220). -/
def outcome {α : Type} (v : Option α) (s : State) : Except HostError α :=
  match s.status, v with
  | .error e, _ => .error (.link e)
  | .ok, some v => .ok v
  | .ok, none => .error .shape

/-- `RX_DATA[0 .. RX_LEN-1]`. -/
def State.rxBytes (s : State) : Option (List Byte) :=
  match s.rxLen with
  | some len => s.rxData.readRange len.toNat
  | none => none

/-- RECV with one command expected (R86): the host writes EXPECT, then RECV runs to its end. -/
def recvExpecting (cmd : Byte) (s : State) : HostOut (List Byte) :=
  andThen (hostWrite (.expect false cmd) s) fun s1 =>
    andThen (blocking .recv s1) fun s2 => .next (outcome s2.rxBytes s2, s2)

/-- Register read (R174): the request, then, if it was sent, the response. An error ends it. -/
def registerRead (addr len : Byte) (s : State) : HostOut (List Byte) :=
  andThen (blocking (.readReq addr len) s) fun s1 =>
    match s1.status with
    | .ok => recvExpecting s1.cfg.cmdRead s1
    | .error e => .next (.error (.link e), s1)

/-- Register write (R175): the frame and nothing else. -/
def registerWrite (addr : Byte) (data : List Byte) (s : State) : HostOut Unit :=
  andThen (blocking (.write addr (BitVec.ofNat 8 data.length) data) s) fun s1 =>
    .next (outcome (some ()) s1, s1)

/-- Telemetry poll (R176): RECV with no SEND before it. -/
def telemetryPoll (s : State) : HostOut (List Byte) := recvExpecting s.cfg.cmdAngleTlm s

end Sys2Proof.Machine
end

