-- ==== Sys2Proof/Machine/Conventions.lean ====
section
/-! DEFINITION. The host conventions around the block (48_host_conventions.md): the register map, the
unit conversions, the write-lock bracket and the facade. Nothing here is a rule of the block (R190):
these are host calls over the machine, with the addresses and enumerated values no source gives left
as opaque constants (log 29). -/

namespace Sys2Proof.Machine

/-! ### Register map (R191, R192, R193) -/

def DevReg.region : DevReg → Region
  | .deviceCode | .version | .mac => .identity
  | .id | .baud | .offset => .configuration
  | .lock | .status | .effector | .vacuum | .speed | .time | .angle | .ik => .runtime
  | .angleTlmRate | .angleFb | .loadTlmRate | .loadFb => .runtime

/-- The widths in bytes a quantity can be carried in; the inverse-kinematics block has two. -/
def DevReg.widths (joints : Nat) : DevReg → List Nat
  | .deviceCode | .version | .id | .baud | .lock | .status | .effector | .vacuum => [1]
  | .angleTlmRate | .loadTlmRate => [1]
  | .mac => [6]
  | .offset | .speed | .time | .angle | .angleFb | .loadFb => [joints]
  | .ik => [9, 12]

/-! ### Unit conversions (R197 to R201) -/

/-- `wire = physical + 128` (R197, R198, R201), no clamp (93 U7); free where that is no byte. -/
def toBiased (v : Int) : Byte :=
  if 0 ≤ v + 128 ∧ v + 128 < 256 then BitVec.ofInt 8 (v + 128) else Config.freeBiased v

/-- `physical = wire - 128`, for all 256 wire values (R198). -/
def ofBiased (b : Byte) : Int := (b.toNat : Int) - 128

/-- Two bytes of `v + 1024`, high byte first (R200); free where that is no 16-bit number. -/
def positionBytes (v : Int) : List Byte :=
  if 0 ≤ v + 1024 ∧ v + 1024 < 65536 then
    [BitVec.ofInt 8 ((v + 1024) / 256), BitVec.ofInt 8 ((v + 1024) % 256)]
  else [(Config.freePosition v).1, (Config.freePosition v).2]

/-- Three components: a position or a direction vector. -/
structure Vec3 where
  x : Int
  y : Int
  z : Int
  deriving DecidableEq, Repr

def positionData (p : Vec3) : List Byte := positionBytes p.x ++ positionBytes p.y ++ positionBytes p.z

def directionData (d : Vec3) : List Byte := [toBiased d.x, toBiased d.y, toBiased d.z]

/-- The nine data bytes of IK6 (R201). -/
def ik6Data (p a : Vec3) : List Byte := positionData p ++ directionData a

/-- The twelve data bytes of IK7 (R201). -/
def ik7Data (p a b : Vec3) : List Byte := ik6Data p a ++ directionData b

/-- `value/10` with one decimal (R191): the whole part and the tenth. -/
def versionOf (b : Byte) : Nat × Nat := (b.toNat / 10, b.toNat % 10)

/-- The hexadecimal digits of a byte sequence (R191), as numbers (log 36). -/
def hexDigits (bytes : List Byte) : List Nat := bytes.flatMap fun b => [b.toNat / 16, b.toNat % 16]

/-- The write-lock flag: 0 unlocked, 1 locked (R193). -/
def lockByte (locked : Bool) : Byte := if locked then 1 else 0

/-! ### The facade (R203 to R206) -/

def mapOut {α β : Type} (o : HostOut α) (f : α → Except HostError β) : HostOut β :=
  match o with
  | .next (.ok v, s) => .next (f v, s)
  | .next (.error e, s) => .next (.error e, s)
  | .fault e => .fault e
  | .refused e => .refused e

/-- Exactly `n` bytes, or the host has no value (log 31). -/
def exactly (n : Nat) (l : List Byte) : Except HostError (List Byte) :=
  if l.length = n then .ok l else .error .shape

def single (l : List Byte) : Except HostError Byte :=
  match l with
  | [b] => .ok b
  | _ => .error .shape

/-- A register read of `n` registers of a quantity from element `j` (R202). LENGTH and ADDRESS are one
byte each, so a count past 255, which an N_JOINTS past one byte asks for, is taken modulo 256 and its
answer is then an error of shape: the model's choice (log 43). -/
def readReg (r : DevReg) (j n : Nat) (s : State) : HostOut (List Byte) :=
  mapOut (registerRead (Config.devAddr r + BitVec.ofNat 8 j) (BitVec.ofNat 8 n) s) (exactly n)

/-- A register write from element `j` (R202). More than 255 bytes of data, which an N_JOINTS past one
byte asks for, are no WRITE and refused: the model's choice (log 43). -/
def writeReg (r : DevReg) (j : Nat) (data : List Byte) (s : State) : HostOut Unit :=
  registerWrite (Config.devAddr r + BitVec.ofNat 8 j) data s

/-- A joint index the device has (R202); another is rejected. -/
def withJoint {α : Type} (j : Nat) (s : State) (o : HostOut α) : HostOut α :=
  if j < s.cfg.nJoints then o else .next (.error .shape, s)

def withCount {α β : Type} (l : List β) (s : State) (o : HostOut α) : HostOut α :=
  if l.length = s.cfg.nJoints then o else .next (.error .shape, s)

def getDeviceCode (s : State) : HostOut Byte := mapOut (readReg .deviceCode 0 1 s) single
def getVersion (s : State) : HostOut (Nat × Nat) :=
  mapOut (readReg .version 0 1 s) fun l => (single l).map versionOf
def getMac (s : State) : HostOut (List Nat) := mapOut (readReg .mac 0 6 s) fun l => .ok (hexDigits l)
def getId (s : State) : HostOut Byte := mapOut (readReg .id 0 1 s) single
def getOffsets (s : State) : HostOut (List Int) :=
  mapOut (readReg .offset 0 s.cfg.nJoints s) fun l => .ok (l.map ofBiased)
def getAngle (j : Nat) (s : State) : HostOut Byte :=
  withJoint j s (mapOut (readReg .angleFb j 1 s) single)
def getAngles (s : State) : HostOut (List Byte) := readReg .angleFb 0 s.cfg.nJoints s
def getLoad (j : Nat) (s : State) : HostOut Int :=
  withJoint j s (mapOut (readReg .loadFb j 1 s) fun l => (single l).map ofBiased)
def getLoads (s : State) : HostOut (List Int) :=
  mapOut (readReg .loadFb 0 s.cfg.nJoints s) fun l => .ok (l.map ofBiased)

def setLock (locked : Bool) (s : State) : HostOut Unit := writeReg .lock 0 [lockByte locked] s
def setStatus (m : ForceMode) (s : State) : HostOut Unit :=
  writeReg .status 0 [Config.forceModeByte m] s
def setEffector (e : Effector) (s : State) : HostOut Unit :=
  writeReg .effector 0 [Config.effectorByte e] s
def setVacuum (on : Bool) (s : State) : HostOut Unit := writeReg .vacuum 0 [Config.vacuumByte on] s
def setAngle (j : Nat) (degrees : Byte) (s : State) : HostOut Unit :=
  withJoint j s (writeReg .angle j [degrees] s)
def setAngles (l : List Byte) (s : State) : HostOut Unit := withCount l s (writeReg .angle 0 l s)
def setIk6 (p a : Vec3) (s : State) : HostOut Unit := writeReg .ik 0 (ik6Data p a) s
def setIk7 (p a b : Vec3) (s : State) : HostOut Unit := writeReg .ik 0 (ik7Data p a b) s
def setAngleTelemetryRate (hz : Byte) (s : State) : HostOut Unit := writeReg .angleTlmRate 0 [hz] s
def setLoadTelemetryRate (hz : Byte) (s : State) : HostOut Unit := writeReg .loadTlmRate 0 [hz] s

/-- One value to a per-joint quantity: whether to all joints or to one is not in SR (91 N9). -/
def writeScoped (r : DevReg) (scope : JointScope) (value : Byte) (s : State) : HostOut Unit :=
  match scope with
  | .all => writeReg r 0 (List.replicate s.cfg.nJoints value) s
  | .one j => withJoint j s (writeReg r j [value] s)

def setSpeed (value : Byte) (s : State) : HostOut Unit :=
  writeScoped .speed (Config.speedScope value) value s
def setTime (value : Byte) (s : State) : HostOut Unit :=
  writeScoped .time (Config.timeScope value) value s

/-- The frame received stands at the angle-feedback base address, as every ANGLE_TLM does (R173). -/
def atAngleFeedback (o : HostOut (List Byte)) : HostOut (List Byte) :=
  match o with
  | .next (.ok l, s) =>
    if s.rxAddr = some (Config.devAddr .angleFb) then .next (.ok l, s)
    else .next (.error .shape, s)
  | o => o

/-- `readAngleTelemetryFrame() -> 7 angles`: the poll of R176, with the checks of RX_LEN and of the
address that R173 says the host must make (log 31). -/
def readAngleTelemetryFrame (s : State) : HostOut (List Byte) :=
  mapOut (atAngleFeedback (telemetryPoll s)) (exactly s.cfg.nJoints)

/-! ### The write-lock bracket (R196) -/

/-- The error the host reports when the re-lock has been sent: the earlier one, which the host must
remember because STATUS holds the re-lock's own (95 P3; log 30). -/
def firstError (e : Except HostError Unit) (o : HostOut Unit) : HostOut Unit :=
  match e, o with
  | .error err, .next (_, s) => .next (.error err, s)
  | _, o => o

/-- The configuration write, then the re-lock whatever STATUS it ended with (R196). A configuration write
that the block refuses (more data than MAX_LEN or 255) ends the call refused, with no re-lock after it:
the model's choice (log 45). -/
def writeThenRelock (r : DevReg) (data : List Byte) (s : State) : HostOut Unit :=
  match writeReg r 0 data s with
  | .next (e, s1) => firstError e (setLock true s1)
  | .fault e => .fault e
  | .refused e => .refused e

/-- Unlock, configuration write, lock (R196). What follows a failed unlock is open (93 U6). -/
def bracketWrite (r : DevReg) (data : List Byte) (s : State) : HostOut Unit :=
  match setLock false s with
  | .next (.ok (), s1) => writeThenRelock r data s1
  | .next (.error e, s1) =>
    match Config.afterFailedUnlock with
    | .stop => .next (.error e, s1)
    | .relock => firstError (.error e) (setLock true s1)
    | .goOn => firstError (.error e) (writeThenRelock r data s1)
  | .fault e => .fault e
  | .refused e => .refused e

/-- Setters of Configuration registers (R205). -/
def setId (id : Byte) (s : State) : HostOut Unit := bracketWrite .id [id] s
def setOffsets (l : List Int) (s : State) : HostOut Unit :=
  withCount l s (bracketWrite .offset (l.map toBiased) s)

end Sys2Proof.Machine
end

