-- ==== Sys2Proof/Safety.lean ====
section
/-! DEFINITION. What the block keeps true from step to step, in the terms the statements use. -/

namespace Sys2Proof.Machine

/-- A buffer of `size` elements is in canonical form and holds exactly these bytes, from element 0, as
far as it has elements. -/
def Buffer.Holds (size : Nat) (m : Buffer) (data : List Byte) : Prop :=
  m.wf size = true ∧ ∀ i, m.read i = if i < size then data[i]? else none

/-- The result registers and the received checksum bytes hold no value (R24, R142, R225). -/
def State.NoResult (s : State) : Prop :=
  s.rxCmd = none ∧ s.rxAddr = none ∧ s.rxLen = none ∧ s.rxData = [] ∧ s.rxCkLo = none ∧
    s.rxCkHi = none

/-- The header registers and RX_DATA hold the frame's fields, so far with these data bytes. -/
def State.RxHolds (s : State) (cmd addr len : Byte) (data : List Byte) : Prop :=
  s.rxCmd = some cmd ∧ s.rxAddr = some addr ∧ s.rxLen = some len ∧ s.rxData.Holds s.cfg.maxLen data

/-- The checksum register has taken exactly these bytes. -/
def State.RxCrcOver (s : State) (bytes : List Byte) : Prop :=
  s.rxCrc = some (crcReg s.cfg.crcPoly s.cfg.crcInit bytes)

/-- A whole frame is in the result registers and its checksum is right: `CK_LO = lo8(c)` and
`CK_HI = hi8(c)` with `c` the checksum of its covered bytes (R30, R72, R154). Data past MAX_LEN elements
is in no register (log 4). -/
def State.Delivered (s : State) : Prop :=
  ∃ cmd addr len data, data.length = len.toNat ∧ s.RxHolds cmd addr len data ∧
    s.rxCkLo = some (lo8 (crc16 s.cfg (covered s.cfg cmd addr len data))) ∧
    s.rxCkHi = some (hi8 (crc16 s.cfg (covered s.cfg cmd addr len data)))

/-- The serializer (R26, R123, R124): idle with its index cleared, or inside an admitted frame with
TX_CRC over the covered bytes already accepted. -/
def TxInv (s : State) : Prop :=
  match s.txState with
  | .idle => s.txIdx = 0
  | .send =>
    ∃ f, txOperands s = .ok f ∧ wfCommand s.cfg f.cmd = true ∧
      wfShape s.cfg f.cmd f.len f.ndata = true ∧
      s.txFrameLen = 5 + f.ndata.toNat + 2 ∧ s.txIdx < s.txFrameLen ∧
      s.txCrc = some (crcReg s.cfg.crcPoly s.cfg.crcInit
        ((covered s.cfg f.cmd f.addr f.len f.data).take s.txIdx))

/-- EXPECT holds a value (R141). -/
def State.ExpectSet (s : State) : Prop := s.expectAny = true ∨ s.expectCmd.isSome = true

/-- The deserializer (R26, R142 to R157): where it is says which registers hold a value, and RX_CRC is
over the bytes of the frame from SYNC1 on. -/
def RxInv (s : State) : Prop :=
  match s.rxState with
  | .idle => s.rxIdx = 0 ∧ if s.rxValid then s.Delivered else s.NoResult
  | .search => s.rxIdx = 0 ∧ s.rxValid = false ∧ s.ExpectSet ∧ s.NoResult
  | .header =>
    s.rxValid = false ∧ s.ExpectSet ∧ s.rxLen = none ∧ s.rxData = [] ∧ s.rxCkLo = none ∧
    s.rxCkHi = none ∧
    ((s.rxIdx = 0 ∧ s.rxCmd = none ∧ s.rxAddr = none ∧ s.RxCrcOver [s.cfg.sync1, s.cfg.sync2]) ∨
     (s.rxIdx = 1 ∧ s.rxAddr = none ∧ ∃ cmd, s.rxCmd = some cmd ∧
        s.RxCrcOver [s.cfg.sync1, s.cfg.sync2, cmd]) ∨
     (s.rxIdx = 2 ∧ ∃ cmd addr, s.rxCmd = some cmd ∧ s.rxAddr = some addr ∧
        s.RxCrcOver [s.cfg.sync1, s.cfg.sync2, cmd, addr]))
  | .data =>
    s.rxValid = false ∧ s.ExpectSet ∧ s.rxCkLo = none ∧ s.rxCkHi = none ∧
    ∃ cmd addr len data, data.length = s.rxIdx ∧ s.rxIdx < len.toNat ∧
      s.RxHolds cmd addr len data ∧ s.RxCrcOver (covered s.cfg cmd addr len data)
  | .ck =>
    s.rxValid = false ∧ s.ExpectSet ∧ s.rxCkHi = none ∧
    ((s.rxIdx = 0 ∧ s.rxCkLo = none) ∨ (s.rxIdx = 1 ∧ s.rxCkLo.isSome = true)) ∧
    ∃ cmd addr len data, data.length = len.toNat ∧
      s.RxHolds cmd addr len data ∧ s.RxCrcOver (covered s.cfg cmd addr len data)

/-- The invariant of the machine: at most one operation is in flight (R31), both sequencers are where
their registers say, the attempt counter is within its cap (R34), and the buffers keep their
canonical form. -/
def Inv (s : State) : Prop :=
  (s.txState = .send → s.rxState = .idle) ∧ TxInv s ∧ RxInv s ∧ s.scanCnt ≤ s.cfg.syncCap ∧
    s.txData.wf s.cfg.maxLen = true ∧ s.rxData.wf s.cfg.maxLen = true

/-- A safe step: no fault (a refusal gives a request no meaning, R223; a fault stops the machine). -/
def StepSafe (s : State) : Prop := ∀ e, step s ≠ .fault e

/-- SR's host: its next request waits for the operation in flight (R11, R64). -/
def HostWaits (s : State) : Prop := ∀ r, s.host.head? = some r → r.waits = true

/-- What SEND needs (R120, R121, R251): a configuration of the spec, an open link, an idle block, every
operand register with a value, a command of the closed set, one of the two shapes, and LENGTH at most
MAX_LEN (R8). -/
def SendAdmitted (s : State) (f : TxOperands) : Prop :=
  s.cfg.legal = true ∧ s.linkOpen = true ∧ s.busy = false ∧
  s.txCmd = some f.cmd ∧ s.txAddr = some f.addr ∧ s.txLen = some f.len ∧ s.txNData = some f.ndata ∧
  f.data.length = f.ndata.toNat ∧ (∀ k, k < f.ndata.toNat → s.txData.read k = f.data[k]?) ∧
  (f.cmd = s.cfg.cmdRead ∨ f.cmd = s.cfg.cmdWrite ∨ f.cmd = s.cfg.cmdAngleTlm) ∧
  f.len.toNat ≤ s.cfg.maxLen ∧ (f.ndata = f.len ∨ (f.cmd = s.cfg.cmdRead ∧ f.ndata = 0))

/-- What RECV needs (R141, R251). -/
def RecvAdmitted (s : State) : Prop :=
  s.cfg.legal = true ∧ s.linkOpen = true ∧ s.busy = false ∧ s.ExpectSet

/-- The answers hold SYNC1 and directly after it SYNC2 (R146). -/
def HasSync (c : Config) (answers : List GetAnswer) : Prop :=
  ∃ i, answers[i]? = some (.byte c.sync1) ∧ answers[i + 1]? = some (.byte c.sync2)

/-- EXPECT accepts this command byte (R156). -/
def State.Expects (s : State) (cmd : Byte) : Prop := s.expectAny = true ∨ s.expectCmd = some cmd

/-- RECV has just ended with TransportTimeout and no result, with this left on the link (R158, R224). -/
def State.TimedOut (s : State) (rest : List GetAnswer) : Prop :=
  s.status = .error .transportTimeout ∧ s.rxValid = false ∧ s.rxState = .idle ∧ s.rxIdx = 0 ∧
    s.NoResult ∧ s.linkIn = rest

/-- `k` steps of the machine end in this state. -/
def Runs (k : Nat) (s t : State) : Prop := match k with
  | 0 => s = t
  | k + 1 => ∃ u, step s = .next u ∧ Runs k u t

end Sys2Proof.Machine
end

