-- ==== Sys2Proof/Certificates/Slice0/Obligations.lean ====
section
/-! DEFINITION. The statements about the model. Where a rule of spec/ carries one of the spec's own
decision marks, its clause is called "the spec's own choice" here, with the decision named. -/

open Sys2Proof Sys2Proof.Machine

/-! ### The step -/

/-- A request that names an instruction, or gives its covered bytes, runs that instruction (R11), in
either direction for a WRITE and an ANGLE_TLM (the model's choice, log 39); bytes that name none are
refused (R80, R82, log 14). A register access is that access and opening or closing
the link is that event, each in a step of its own (the model's choice, log 6, 27). The step takes the
request off the queue and adds nothing else; how requests reach the block, and that one that does not
wait is taken while busy, is the model's choice (HOST_BINDING is open, log 5, 7). -/
def Obligations.StepRunsTheInstruction : Prop :=
  ∀ (s : State) (w : Bool) (rest : List HostRequest) (i : Instr),
    s.cfg.legal = true → (s.busy = false ∨ w = false) →
    (s.host = ⟨w, .op i⟩ :: rest → step s = exec i { s with host := rest }) ∧
    (∀ dir bytes after, s.host = ⟨w, .word dir bytes⟩ :: rest →
      decode s.cfg dir bytes = .ok (i, after) → step s = exec i { s with host := rest }) ∧
    (∀ dir bytes e, s.host = ⟨w, .word dir bytes⟩ :: rest →
      decode s.cfg dir bytes = .error e → step s = .refused (.undecodable e)) ∧
    (∀ hw, s.host = ⟨w, .write hw⟩ :: rest → step s = hostWrite hw { s with host := rest }) ∧
    (∀ r, s.host = ⟨w, .read r⟩ :: rest → step s = hostRead r { s with host := rest }) ∧
    (s.host = ⟨w, .openLink⟩ :: rest → step s = perform .openLink { s with host := rest }) ∧
    (s.host = ⟨w, .closeLink⟩ :: rest → step s = perform .closeLink { s with host := rest })

/-- While an operation is in flight and the host waits for it, a step is the move of the sequencer in
flight (R11, R25, R64). An idle block with nothing asked of it stays as it is (the model's choice,
log 23). A configuration outside R10 is refused (the spec's own choice, D2), in every step (the model's,
log 38). -/
def Obligations.StepMovesTheSequencer : Prop :=
  ∀ s : State,
    (s.cfg.legal = true → s.busy = true → HostWaits s →
      (s.txState = .send → step s = txStep s) ∧ (s.txState = .idle → step s = rxStep s)) ∧
    (s.cfg.legal = true → s.busy = false → s.host = [] → step s = .next s) ∧
    (s.cfg.legal = false → step s = .refused .badConfig)

/-- The parameters of R8 are fixed for the machine. -/
def Obligations.StepKeepsTheParameters : Prop :=
  ∀ s t : State, step s = .next t → t.cfg = s.cfg

/-- An inbound answer is consumed by a RECV in flight and by nothing else; bytes that arrive stand
behind what is there (R38). -/
def Obligations.OnlyRecvConsumesInbound : Prop :=
  ∀ s t : State, step s = .next t → s.rxState = .idle →
    t.linkGets = s.linkGets ∧ ∃ arrived, t.linkIn = s.linkIn ++ arrived

/-- A byte leaves the block only in a step of SEND, and one at a time (R125, R140). -/
def Obligations.OnlySendWritesTheLink : Prop :=
  ∀ s t : State, step s = .next t → t.linkOut ≠ s.linkOut →
    s.txState = .send ∧ ∃ b, t.linkOut = s.linkOut ++ [b]

/-- STATUS is written at the completion of a SEND or RECV and by nothing else, reset apart (the spec's
own choice, D17 and D29). -/
def Obligations.StatusChangesOnlyAtCompletion : Prop :=
  ∀ s t : State, Inv s → step s = .next t → t.status ≠ s.status →
    (∀ r, s.host.head? = some r → r.act ≠ .reset) → s.busy = true ∧ t.busy = false

/-- RX_VALID becomes 1 only where a RECV completes with STATUS = OK after its second checksum byte, and
then the result registers hold a whole frame whose checksum is right (the spec's own choice of the
flag, D18). Where LENGTH is past MAX_LEN the buffer holds the data only as far as it has elements, and
the bytes after them, which the checksum is over too, are in no register (log 4). That RX_CK_LO and
RX_CK_HI keep their values in the idle block is log 19. -/
def Obligations.ResultIsAWholeCheckedFrame : Prop :=
  ∀ s t : State, Inv s → step s = .next t → s.rxValid = false → t.rxValid = true →
    s.rxState = .ck ∧ s.rxIdx = 1 ∧ t.status = .ok ∧ t.busy = false ∧ t.Delivered

/-! ### Invariants -/

/-- Where the sequencers are says what the registers hold, at most one operation is in flight, and the
buffers keep their canonical form: every step keeps that, from every state that has it. -/
def Obligations.StepKeepsInv : Prop := ∀ s t : State, Inv s → step s = .next t → Inv t

/-- The state after reset has it. -/
def Obligations.ResetHasInv : Prop := Inv State.reset

/-- No sequencer wraps or leaves its range (R26, R34): a consequence of the invariant. The longest frame
is 5 + MAX_LEN + 2 (R22); 262 and 254 are the widths of R25, LENGTH being one byte. -/
def Obligations.IndicesStayInRange : Prop :=
  ∀ s : State, Inv s →
    (s.txState = .send → s.txIdx < s.txFrameLen ∧ 7 ≤ s.txFrameLen ∧
      s.txFrameLen ≤ s.cfg.longestFrame ∧ s.txFrameLen ≤ 262) ∧
    (s.txState = .idle → s.txIdx = 0) ∧
    (s.rxState = .header → s.rxIdx < 3) ∧ (s.rxState = .ck → s.rxIdx < 2) ∧
    (s.rxState = .data → ∃ len, s.rxLen = some len ∧ s.rxIdx < len.toNat) ∧
    s.rxIdx ≤ 254 ∧ s.scanCnt ≤ s.cfg.syncCap

/-- A busy block always moves: no link answer, and no data, leads a sequencer to a fault or a
refusal. -/
def Obligations.BusyBlockAlwaysMoves : Prop :=
  ∀ s : State, Inv s → s.busy = true → ∃ t, seqStep s = .next t

/-- Every RECV ends, after at most SYNC_CAP + 3 + 255 + 2 `LinkGet` calls, whatever the link answers
(R160). The 255 is the greatest LENGTH one byte can carry, which RECV does not test (R150), so the bound
holds for every MAX_LEN. -/
def Obligations.EveryRecvEnds : Prop :=
  ∀ s t : State, RecvAdmitted s → Inv s → HostWaits s → exec .recv s = .next t →
    ∃ k u, Runs k t u ∧ u.busy = false ∧ u.linkGets ≤ s.linkGets + (s.cfg.syncCap + 3 + 255 + 2)

/-- Every SEND ends, after at most TX_FRAME_LEN link answers, whatever they are (R129). -/
def Obligations.EverySendEnds : Prop :=
  ∀ (s t : State) (f : TxOperands), SendAdmitted s f → HostWaits s → exec .send s = .next t →
    ∃ k u, Runs k t u ∧ k ≤ t.txFrameLen ∧ u.busy = false ∧ u.linkPuts ≤ s.linkPuts + t.txFrameLen

/-! ### Reset -/

/-- The reset table (10_state.md section 6), which the spec marks as its own choice (D19), and the
link open, nothing listed on it and no request: the model's choice (log 2). -/
def Obligations.ResetState : Prop :=
  State.reset.cfg = Config.default ∧ State.reset.busy = false ∧
  State.reset.txIdx = 0 ∧ State.reset.rxIdx = 0 ∧ State.reset.txFrameLen = 0 ∧
  State.reset.scanCnt = 0 ∧ State.reset.sawSync1 = false ∧ State.reset.status = .ok ∧
  State.reset.rxValid = false ∧ State.reset.expectAny = true ∧ State.reset.expectCmd = none ∧
  State.reset.crcAcc = none ∧ State.reset.txCrc = none ∧ State.reset.rxCrc = none ∧
  State.reset.txCmd = none ∧ State.reset.txAddr = none ∧ State.reset.txLen = none ∧
  State.reset.txNData = none ∧ (∀ i, State.reset.txData.read i = none) ∧ State.reset.NoResult ∧
  State.reset.linkOpen = true ∧ State.reset.linkIn = [] ∧ State.reset.putAnswers = [] ∧
  State.reset.linkOut = [] ∧ State.reset.host = [] ∧ State.reset.result = none

/-- Reset as an event: nothing in the block survives it (R42), whatever is in flight, and the link, open
or closed, keeps all it holds. The reset values are the spec's own choice (D19); that a host can ask
for it, and what is kept beside the link's bytes, is the model's (log 26). -/
def Obligations.NothingInTheBlockSurvivesReset : Prop :=
  ∀ (s : State) (w : Bool) (rest : List HostRequest),
    s.cfg.legal = true → (s.busy = false ∨ w = false) → s.host = ⟨w, .reset⟩ :: rest →
    ∃ t, step s = .next t ∧ t.linkOpen = s.linkOpen ∧ t.linkIn = s.linkIn ∧
      t.linkGets = s.linkGets ∧ t.putAnswers = s.putAnswers ∧ t.linkPuts = s.linkPuts ∧
      t.linkOut = s.linkOut ∧ t.cfg = s.cfg ∧ t.host = rest ∧ t.result = s.result ∧
      { t with cfg := Config.default, linkOpen := true, linkIn := [], linkGets := 0, putAnswers := [],
               linkPuts := 0, linkOut := [], host := [], result := none } = State.reset

/-! ### Frames as bytes -/

/-- The frame of R70 byte by byte, with the checksum over every byte from SYNC1 through the data
(R71), low byte first. -/
def Obligations.FrameLayout : Prop :=
  ∀ (c : Config) (cmd addr len : Byte) (data : List Byte),
    let fr := frameBytes c cmd addr len data
    fr.length = 5 + data.length + 2 ∧
    fr[0]? = some c.sync1 ∧ fr[1]? = some c.sync2 ∧ fr[2]? = some cmd ∧ fr[3]? = some addr ∧
    fr[4]? = some len ∧ (∀ i, i < data.length → fr[5 + i]? = data[i]?) ∧
    fr[5 + data.length]? = some (lo8 (crc16 c (fr.take (5 + data.length)))) ∧
    fr[6 + data.length]? = some (hi8 (crc16 c (fr.take (5 + data.length))))

/-- Decoding the frame of an instruction gives the instruction back, with every operand at every value,
and leaves what follows the frame. A frame with CMD_READ is read in its own direction. That a WRITE and
an ANGLE_TLM decode in either direction is the model's choice (log 39). -/
def Obligations.DecodeOfEncode : Prop :=
  ∀ (c : Config) (i : Instr) (w rest : List Byte) (dir : Direction),
    c.legal = true → i.wellFormed = true → encode c i = some w →
    ((∃ a l, i = .readReq a l) → dir = .hostToDevice) →
    ((∃ a l d, i = .readAck a l d) → dir = .deviceToHost) →
    decodeFrame c dir (w ++ rest) = .ok (i, rest)

/-- The other way: bytes that read as a frame are the frame of the instruction they read as, which is
well formed. The direction is any, for a WRITE and an ANGLE_TLM too (log 39). -/
def Obligations.EncodeOfDecode : Prop :=
  ∀ (c : Config) (dir : Direction) (bytes : List Byte) (i : Instr) (rest : List Byte),
    decodeFrame c dir bytes = .ok (i, rest) →
    i.wellFormed = true ∧ ∃ w, encode c i = some w ∧ bytes = w ++ rest

/-- A few words written out from the rows of the opcode table: header, data and checksum bytes. -/
def Obligations.KnownWordsDecode : Prop :=
  decodeFrame .default .hostToDevice [0xAA, 0x77, 0x03, 0x60, 0x07, 0xBE, 0x6E]
    = .ok (.readReq 0x60 0x07, []) ∧
  decodeFrame .default .deviceToHost [0xAA, 0x77, 0x03, 0x00, 0x01, 0x5A, 0x6D, 0xF5]
    = .ok (.readAck 0x00 0x01 [0x5A], []) ∧
  decodeFrame .default .hostToDevice [0xAA, 0x77, 0x04, 0x20, 0x01, 0x00, 0xED, 0x70]
    = .ok (.write 0x20 0x01 [0x00], []) ∧
  decodeFrame .default .deviceToHost
      [0xAA, 0x77, 0x05, 0x60, 0x07, 0x5A, 0x5A, 0x41, 0x5A, 0x5A, 0x5A, 0x4B, 0x34, 0x36]
    = .ok (.angleTlm 0x60 0x07 [0x5A, 0x5A, 0x41, 0x5A, 0x5A, 0x5A, 0x4B], [])

/-- Bytes without the sync pair are noise (R82), and a COMMAND value outside the closed set names no
instruction (R80). -/
def Obligations.DecodeRejectsByName : Prop :=
  ∀ (c : Config) (dir : Direction) (s1 s2 cmd addr len : Byte) (rest : List Byte),
    (¬(s1 = c.sync1 ∧ s2 = c.sync2) →
      decode c dir (s1 :: s2 :: cmd :: addr :: len :: rest) = .error .notSync) ∧
    (cmd ≠ c.cmdRead → cmd ≠ c.cmdWrite → cmd ≠ c.cmdAngleTlm →
      decode c dir (c.sync1 :: c.sync2 :: cmd :: addr :: len :: rest) = .error (.reservedCommand cmd))

/-! ### The Checksum Engine -/

/-- `rev8(b)[i] = b[7-i]`, an involution, with the rule's examples (R101), and `rev16(w)[i] = w[15-i]`
(R104). -/
def Obligations.BitReversals : Prop :=
  (∀ (b : Byte) (i : Nat), i < 8 → (rev8 b).getLsbD i = b.getLsbD (7 - i)) ∧
  (∀ b : Byte, rev8 (rev8 b) = b) ∧
  [0x01, 0x31, 0xAA, 0x77, 0x00, 0xFF].map rev8 = [0x80, 0x8C, 0x55, 0xEE, 0x00, 0xFF] ∧
  (∀ (w : Code) (i : Nat), i < 16 → (rev16 w).getLsbD i = w.getLsbD (15 - i))

/-- The fold XORs the reversed byte into the high byte of the register and leaves the low byte (R102).
That a byte step is eight division steps of the fold is in StreamingOperations. -/
def Obligations.FoldEntersTheHighByte : Prop :=
  ∀ (reg : Code) (b : Byte),
    crcFold reg b = reg ^^^ ((rev8 b).setWidth 16 <<< 8) ∧
    hi8 (crcFold reg b) = hi8 reg ^^^ rev8 b ∧ lo8 (crcFold reg b) = lo8 reg

/-- The least-significant-bit-first form (40_checksum.md, the equivalent form): the unreversed byte
into the low byte, eight steps to the right with the reversed polynomial, no reversal at the end. For
every polynomial and initial value. -/
def Obligations.ReflectedForm : Prop :=
  ∀ (c : Config) (s : List Byte),
    let step1 : Code → Code := fun r =>
      if r.getLsbD 0 then (r >>> 1) ^^^ rev16 c.crcPoly else r >>> 1
    crc16 c s = s.foldl (fun r b => step1^[8] (r ^^^ b.setWidth 16)) (rev16 c.crcInit)

/-- A code appended low byte first leaves the code 0 (40_checksum.md, residue law), for every
polynomial and initial value. -/
def Obligations.ResidueIsZero : Prop :=
  ∀ (c : Config) (s : List Byte), crc16 c (s ++ [lo8 (crc16 c s), hi8 (crc16 c s)]) = 0

/-- A change of one byte changes the code, where the polynomial has its constant term (as 0x8005 does):
the register is never lost by a step. The "always" of the corruption law rests on general knowledge in
the spec (G4); here it is a statement about the engine. -/
def Obligations.OneChangedByteChangesTheCode : Prop :=
  ∀ (c : Config) (pre post : List Byte) (b b' : Byte), c.crcPoly.getLsbD 0 = true → b ≠ b' →
    crc16 c (pre ++ b :: post) ≠ crc16 c (pre ++ b' :: post)

/-- The results of the three streaming operations, and nothing else of the state changes: CRC_INIT
loads the initial value, CRC_BYTE takes a byte step, which is eight division steps of the fold (the
spec's own reading, D4), CRC_OUT returns the reversed register. -/
def Obligations.StreamingOperations : Prop :=
  (∀ (poly reg : Code) (b : Byte), byteStep poly reg b = divSteps poly 8 (crcFold reg b)) ∧
  ∀ s : State, s.busy = false →
    exec .crcInit s = .next { s with crcAcc := some s.cfg.crcInit } ∧
    ∀ reg, s.crcAcc = some reg →
      (∀ b, exec (.crcByte b) s =
        .next { s with crcAcc := some (divSteps s.cfg.crcPoly 8 (crcFold reg b)) }) ∧
      exec .crcOut s = .next { s with result := some (rev16 reg) }

/-- CHECKSUM is exactly CRC_INIT, CRC_BYTE for each byte, CRC_OUT, and it completes with the code of the
sequence. -/
def Obligations.ChecksumIsItsStream : Prop :=
  ∀ (s : State) (bytes : List Byte), s.busy = false →
    andThen (exec .crcInit s) (fun s1 =>
        andThen (bytes.foldl (fun o b => andThen o (exec (.crcByte b))) (.next s1)) (exec .crcOut))
      = exec (.checksum bytes) s ∧
    ∃ t, exec (.checksum bytes) s = .next t ∧ t.result = some (crc16 s.cfg bytes) ∧
      { t with crcAcc := s.crcAcc, result := s.result } = s

/-- CRC_BYTE and CRC_OUT before any CRC_INIT are refused (the spec's own choice, D26). -/
def Obligations.CrcBeforeInitRefused : Prop :=
  ∀ s : State, s.crcAcc = none →
    (∀ b, ∃ r, exec (.crcByte b) s = .refused r) ∧ ∃ r, exec .crcOut s = .refused r

/-- Published and derived check values (40_checksum.md, 95_test_vectors.md V3, V4). -/
def Obligations.KnownCodes : Prop :=
  crc16 .default [] = 0xFFFF ∧
  crc16 .default [0x31, 0x32, 0x33, 0x34, 0x35, 0x36, 0x37, 0x38, 0x39] = 0x4B37 ∧
  crc16 .default [0x01, 0x03, 0x00, 0x00, 0x00, 0x01] = 0x0A84 ∧
  crc16 .default [0xAA, 0x77, 0x03, 0x00, 0x01] = 0x6C16

/-! ### SEND -/

/-- SEND starts (41_serializer.md, start of SEND): the frame length is latched, TX_CRC is loaded, the
index is 0, and nothing else changes. -/
def Obligations.SendStarts : Prop :=
  ∀ (s : State) (f : TxOperands), SendAdmitted s f →
    exec .send s = .next { s with txFrameLen := 5 + f.ndata.toNat + 2, txCrc := some s.cfg.crcInit,
                                  txIdx := 0, txState := .send }

/-- SEND is carried out only if its checks hold, and is refused otherwise: no fault, no partial effect
(the checks are the spec's own choice, D2, D7, D22, D25, D26; that LENGTH past MAX_LEN is refused is log
4, that SEND itself tests the configuration is log 38). -/
def Obligations.SendRefusedOtherwise : Prop :=
  ∀ s : State, (¬∃ f, SendAdmitted s f) → ∃ r, exec .send s = .refused r

/-- With every byte accepted, SEND puts exactly the frame of R122 on the link and completes OK; the
operand registers keep their values (R126) and nothing but SEND's own registers and the link's outbound
side changes. The values TX_FRAME_LEN and TX_CRC keep in the idle block are the model's choice (log
19). -/
def Obligations.SendEmitsTheFrame : Prop :=
  ∀ (s t : State) (f : TxOperands) (rest : List PutAnswer),
    SendAdmitted s f → HostWaits s → exec .send s = .next t →
    s.putAnswers = List.replicate (7 + f.data.length) .accepted ++ rest →
    Runs (7 + f.data.length) t
      { s with
        txFrameLen := 7 + f.data.length, txIdx := 0, status := .ok
        txCrc := some (crcReg s.cfg.crcPoly s.cfg.crcInit (covered s.cfg f.cmd f.addr f.len f.data))
        putAnswers := rest, linkPuts := s.linkPuts + (7 + f.data.length)
        linkOut := s.linkOut ++ frameBytes s.cfg f.cmd f.addr f.len f.data }

/-- At the first rejected byte SEND ends with TransportWriteFailure: the bytes before it have left the
block, none is offered after it, no retry (the spec's own choice of what stays sent, D9). That both
private checksum registers then hold no value, and that RX_VALID and the result registers outlive the
error, is log 18; that TX_FRAME_LEN keeps its value is log 19. -/
def Obligations.SendStopsAtARejectedByte : Prop :=
  ∀ (s t : State) (f : TxOperands) (k : Nat) (rest : List PutAnswer),
    SendAdmitted s f → HostWaits s → exec .send s = .next t → k < 7 + f.data.length →
    s.putAnswers = List.replicate k .accepted ++ .rejected :: rest →
    Runs (k + 1) t
      { s with
        txFrameLen := 7 + f.data.length, txIdx := 0, status := .error .transportWriteFailure
        txCrc := none, rxCrc := none
        putAnswers := rest, linkPuts := s.linkPuts + (k + 1)
        linkOut := s.linkOut ++ (frameBytes s.cfg f.cmd f.addr f.len f.data).take k }

/-- A step of SEND leaves the operand registers, the result registers, CRC_ACC, EXPECT, the search
registers and the inbound side as they were: SEND never reads the link (R120, R126). That RX_VALID and
the result registers outlive the step in which SEND fails is the model's reading of R225 (log 18). -/
def Obligations.SendStepFrame : Prop :=
  ∀ s t : State, txStep s = .next t →
    t.txCmd = s.txCmd ∧ t.txAddr = s.txAddr ∧ t.txLen = s.txLen ∧ t.txNData = s.txNData ∧
    t.rxCmd = s.rxCmd ∧ t.rxAddr = s.rxAddr ∧ t.rxLen = s.rxLen ∧ t.rxValid = s.rxValid ∧
    (∀ i, t.txData.read i = s.txData.read i) ∧ (∀ i, t.rxData.read i = s.rxData.read i) ∧
    t.crcAcc = s.crcAcc ∧ t.expectAny = s.expectAny ∧ t.expectCmd = s.expectCmd ∧
    t.scanCnt = s.scanCnt ∧ t.sawSync1 = s.sawSync1 ∧ t.rxState = s.rxState ∧ t.rxIdx = s.rxIdx ∧
    t.rxCkLo = s.rxCkLo ∧ t.rxCkHi = s.rxCkHi ∧ t.linkIn = s.linkIn ∧ t.linkGets = s.linkGets ∧
    t.linkOpen = s.linkOpen ∧ t.host = s.host ∧ t.result = s.result ∧ t.cfg = s.cfg

/-! ### RECV -/

/-- RECV starts a fresh search; the result registers hold no value from here on (the spec's own choice
of what is cleared, D18). Nothing else changes. -/
def Obligations.RecvStarts : Prop :=
  ∀ s : State, RecvAdmitted s →
    exec .recv s = .next { s with
      rxValid := false, scanCnt := 0, sawSync1 := false, rxIdx := 0, rxState := .search,
      rxCmd := none, rxAddr := none, rxLen := none, rxData := [], rxCkLo := none, rxCkHi := none }

/-- RECV is carried out only if its checks hold, and is refused otherwise (the spec's own choice, D2,
D22, D25, D26; that RECV itself tests the configuration is log 38). -/
def Obligations.RecvRefusedOtherwise : Prop :=
  ∀ s : State, ¬RecvAdmitted s → ∃ r, exec .recv s = .refused r

/-- One attempt of the search, for each answer (the spec's own reading of the search, D10, D11, D12):
every attempt counts, a timeout disarms the window, SYNC2 with the window armed is the match, any other
byte arms the window exactly if it is SYNC1. -/
def Obligations.SearchAttempt : Prop :=
  ∀ (s : State) (a : GetAnswer) (rest : List GetAnswer),
    s.txState = .idle → s.rxState = .search → s.scanCnt < s.cfg.syncCap → s.linkIn = a :: rest →
    let s1 := { s with linkIn := rest, linkGets := s.linkGets + 1, scanCnt := s.scanCnt + 1 }
    (a = .timeout → seqStep s = .next { s1 with sawSync1 := false }) ∧
    (∀ b, a = .byte b → s.sawSync1 = true → b = s.cfg.sync2 →
      seqStep s = .next { s1 with
        rxCrc := some (crcReg s.cfg.crcPoly s.cfg.crcInit [s.cfg.sync1, s.cfg.sync2]),
        rxIdx := 0, rxState := .header }) ∧
    (∀ b, a = .byte b → ¬(s.sawSync1 = true ∧ b = s.cfg.sync2) →
      seqStep s = .next { s1 with sawSync1 := decide (b = s.cfg.sync1) })

/-- The sync pair behind answers that do not hold one is found when it completes on attempt SYNC_CAP or
earlier, and the search has then counted every attempt (the spec's own reading, D10, D11, D12). -/
def Obligations.SyncFoundWithinTheCap : Prop :=
  ∀ (s t : State) (noise rest : List GetAnswer),
    RecvAdmitted s → HostWaits s → exec .recv s = .next t →
    s.linkIn = noise ++ .byte s.cfg.sync1 :: .byte s.cfg.sync2 :: rest →
    ¬HasSync s.cfg noise → noise.length + 2 ≤ s.cfg.syncCap →
    Runs (noise.length + 2) t
      { t with
        scanCnt := noise.length + 2, sawSync1 := true, rxState := .header
        rxCrc := some (crcReg s.cfg.crcPoly s.cfg.crcInit [s.cfg.sync1, s.cfg.sync2])
        linkIn := rest, linkGets := s.linkGets + (noise.length + 2) }

/-- SYNC_CAP attempts without a match end RECV with TransportTimeout, with exactly SYNC_CAP answers
consumed and no result; a silent link is the case of SYNC_CAP timeouts (the spec's own reading, D11,
D12). -/
def Obligations.CapEndsTheSearch : Prop :=
  ∀ s t : State,
    RecvAdmitted s → HostWaits s → exec .recv s = .next t →
    s.cfg.syncCap ≤ s.linkIn.length → ¬HasSync s.cfg (s.linkIn.take s.cfg.syncCap) →
    ∃ u, Runs (s.cfg.syncCap + 1) t u ∧ u.status = .error .transportTimeout ∧ u.busy = false ∧
      u.rxValid = false ∧ u.NoResult ∧ u.scanCnt = s.cfg.syncCap ∧
      u.linkIn = s.linkIn.drop s.cfg.syncCap ∧ u.linkGets = s.linkGets + s.cfg.syncCap ∧
      u.linkOut = s.linkOut

/-- A header byte goes to the register its index names, enters RX_CRC, and the third chooses between
the data and the checksum (R150). No value is rejected. A timeout raises TransportTimeout, with what
that leaves the spec's own choice (D13, D18). -/
def Obligations.HeaderByte : Prop :=
  ∀ (s : State) (b : Byte) (rest : List GetAnswer),
    s.txState = .idle → s.rxState = .header →
    (s.linkIn = .timeout :: rest → ∃ t, seqStep s = .next t ∧ t.TimedOut rest) ∧
    (s.linkIn = .byte b :: rest →
    let s1 := { s with linkIn := rest, linkGets := s.linkGets + 1,
                       rxCrc := s.rxCrc.map fun r => byteStep s.cfg.crcPoly r b }
    (s.rxIdx = 0 → seqStep s = .next { s1 with rxCmd := some b, rxIdx := 1 }) ∧
    (s.rxIdx = 1 → seqStep s = .next { s1 with rxAddr := some b, rxIdx := 2 }) ∧
    (s.rxIdx = 2 → seqStep s = .next { s1 with
      rxLen := some b, rxIdx := 0, rxState := if b = 0 then .ck else .data }))

/-- A data byte is stored at its index, whatever it is, enters RX_CRC, and the last one leads to the
checksum (R152). Every other element keeps its value. A timeout raises TransportTimeout, with what that
leaves the spec's own choice (D13, D18). A byte past MAX_LEN elements has none to be stored in (log 4). -/
def Obligations.DataByte : Prop :=
  ∀ (s : State) (len b : Byte) (rest : List GetAnswer),
    s.txState = .idle → s.rxState = .data → s.rxLen = some len → s.rxIdx < len.toNat →
    (s.linkIn = .timeout :: rest → ∃ t, seqStep s = .next t ∧ t.TimedOut rest) ∧
    (s.linkIn = .byte b :: rest →
    ∃ t, seqStep s = .next t ∧ (s.rxIdx < s.cfg.maxLen → t.rxData.read s.rxIdx = some b) ∧
      (∀ i, i ≠ s.rxIdx ∨ s.cfg.maxLen ≤ i → t.rxData.read i = s.rxData.read i) ∧
      t.rxIdx = (if s.rxIdx + 1 = len.toNat then 0 else s.rxIdx + 1) ∧
      t.rxState = (if s.rxIdx + 1 = len.toNat then .ck else .data) ∧
      { t with rxData := s.rxData, rxIdx := s.rxIdx, rxState := s.rxState }
        = { s with linkIn := rest, linkGets := s.linkGets + 1,
                   rxCrc := s.rxCrc.map fun r => byteStep s.cfg.crcPoly r b })

/-- Neither checksum byte enters RX_CRC, the first is only stored (R153). After the second, one wrong
byte is FrameCorruption whatever was expected (R154, R155), and no result is left. -/
def Obligations.ChecksumBytes : Prop :=
  ∀ (s : State) (b : Byte) (rest : List GetAnswer),
    s.txState = .idle → s.rxState = .ck → s.linkIn = .byte b :: rest →
    (s.rxIdx = 0 → seqStep s = .next { s with
      linkIn := rest, linkGets := s.linkGets + 1, rxCkLo := some b, rxIdx := 1 }) ∧
    (∀ crc lo, s.rxIdx = 1 → s.rxCrc = some crc → s.rxCkLo = some lo → s.rxCmd.isSome = true →
      s.ExpectSet → ¬(lo = lo8 (rev16 crc) ∧ b = hi8 (rev16 crc)) →
      ∃ t, seqStep s = .next t ∧ t.status = .error .frameCorruption ∧ t.rxValid = false ∧
        t.rxState = .idle ∧ t.rxIdx = 0 ∧ t.NoResult ∧ t.linkIn = rest ∧
        t.linkGets = s.linkGets + 1)

/-- After a right checksum: ProtocolMismatch where one command was expected and another came (R156, the
spec's own choice of where the test lives, D14), success otherwise: STATUS and RX_VALID are set and
the result registers hold the frame (R157). The values the private registers RX_CRC, RX_CK_LO and
RX_CK_HI keep in the idle block are the model's choice (log 19). -/
def Obligations.CommandTestAndSuccess : Prop :=
  ∀ (s : State) (cmd : Byte) (crc : Code) (rest : List GetAnswer),
    s.txState = .idle → s.rxState = .ck → s.rxIdx = 1 → s.rxCrc = some crc → s.rxCmd = some cmd →
    s.rxCkLo = some (lo8 (rev16 crc)) → s.linkIn = .byte (hi8 (rev16 crc)) :: rest →
    (s.Expects cmd → seqStep s = .next { s with
      linkIn := rest, linkGets := s.linkGets + 1, rxCkHi := some (hi8 (rev16 crc)), status := .ok,
      rxValid := true, rxState := .idle, rxIdx := 0 }) ∧
    (∀ e, s.expectAny = false → s.expectCmd = some e → cmd ≠ e →
      ∃ t, seqStep s = .next t ∧ t.status = .error .protocolMismatch ∧ t.rxValid = false ∧
        t.rxState = .idle ∧ t.rxIdx = 0 ∧ t.NoResult ∧ t.linkIn = rest)

/-- A timeout after sync ends RECV at once with TransportTimeout and no result; the operand registers,
EXPECT, SCAN_CNT, SAW_SYNC1 and CRC_ACC keep their values (R158, R224, R225; the spec's own choice, D13, D18). -/
def Obligations.TimeoutAfterSync : Prop :=
  ∀ (s : State) (len : Byte) (rest : List GetAnswer),
    s.txState = .idle →
    (s.rxState = .header ∨ (s.rxState = .data ∧ s.rxLen = some len ∧ s.rxIdx < len.toNat) ∨
      s.rxState = .ck) →
    s.linkIn = .timeout :: rest →
    ∃ t, seqStep s = .next t ∧ t.TimedOut rest ∧
      t.scanCnt = s.scanCnt ∧ t.sawSync1 = s.sawSync1 ∧ t.expectAny = s.expectAny ∧
      t.expectCmd = s.expectCmd ∧ t.crcAcc = s.crcAcc ∧ t.txCmd = s.txCmd ∧ t.txAddr = s.txAddr ∧ t.txLen = s.txLen ∧
      t.txNData = s.txNData ∧ (∀ i, t.txData.read i = s.txData.read i) ∧ t.linkOut = s.linkOut

/-- A step of RECV leaves the operand registers, CRC_ACC, EXPECT and the outbound side as they were
(R140: RECV never writes to the link). -/
def Obligations.RecvStepFrame : Prop :=
  ∀ s t : State, rxStep s = .next t →
    t.txCmd = s.txCmd ∧ t.txAddr = s.txAddr ∧ t.txLen = s.txLen ∧ t.txNData = s.txNData ∧
    (∀ i, t.txData.read i = s.txData.read i) ∧ t.crcAcc = s.crcAcc ∧ t.expectAny = s.expectAny ∧
    t.expectCmd = s.expectCmd ∧ t.txState = s.txState ∧ t.txIdx = s.txIdx ∧
    t.txFrameLen = s.txFrameLen ∧ t.putAnswers = s.putAnswers ∧ t.linkPuts = s.linkPuts ∧
    t.linkOut = s.linkOut ∧ t.linkOpen = s.linkOpen ∧ t.host = s.host ∧ t.result = s.result ∧
    t.cfg = s.cfg

/-- Noise, then a valid frame: RECV skips the noise and delivers the frame, where the sync pair is
within the cap and the command is one that is expected (42_deserializer.md, synchronization-recovery
law; the edge is the spec's own choice, D11). Where LENGTH is past MAX_LEN, RX_DATA holds the data only
as far as it has elements, and the rest, read and checked, is in no register (log 4). -/
def Obligations.NoiseThenFrameDelivered : Prop :=
  ∀ (s t : State) (noise rest : List GetAnswer) (cmd addr len : Byte) (data : List Byte),
    RecvAdmitted s → HostWaits s → exec .recv s = .next t →
    data.length = len.toNat → s.Expects cmd →
    s.linkIn = noise ++ (frameBytes s.cfg cmd addr len data).map .byte ++ rest →
    ¬HasSync s.cfg noise → noise.length + 2 ≤ s.cfg.syncCap →
    ∃ u, Runs (noise.length + 7 + data.length) t u ∧ u.status = .ok ∧ u.rxValid = true ∧
      u.busy = false ∧ u.rxIdx = 0 ∧ u.RxHolds cmd addr len data ∧ u.linkIn = rest ∧
      u.scanCnt = noise.length + 2 ∧ u.linkOut = s.linkOut

/-- A valid frame of a kind that was not expected is consumed whole and ends in ProtocolMismatch: none
of its bytes is delivered as a response, and what follows it on the link is untouched (telemetry ahead
of a response; the place of the test is the spec's own choice, D14). -/
def Obligations.UnexpectedFrameConsumedWhole : Prop :=
  ∀ (s t : State) (rest : List GetAnswer) (cmd addr len e : Byte) (data : List Byte),
    RecvAdmitted s → HostWaits s → exec .recv s = .next t → 2 ≤ s.cfg.syncCap →
    data.length = len.toNat → s.expectAny = false → s.expectCmd = some e → cmd ≠ e →
    s.linkIn = (frameBytes s.cfg cmd addr len data).map .byte ++ rest →
    ∃ u, Runs (7 + data.length) t u ∧ u.status = .error .protocolMismatch ∧ u.rxValid = false ∧
      u.NoResult ∧ u.busy = false ∧ u.linkIn = rest

/-- A frame with one byte of COMMAND, ADDRESS or the data changed (`k` is its index in the frame), its
checksum bytes as sent: RECV ends with FrameCorruption, whatever was expected, and gives no result.
For a polynomial with its constant term. -/
def Obligations.ChangedByteIsCorruption : Prop :=
  ∀ (s t : State) (rest : List GetAnswer) (cmd addr len : Byte) (data : List Byte) (k : Nat)
      (b : Byte),
    RecvAdmitted s → HostWaits s → exec .recv s = .next t → 2 ≤ s.cfg.syncCap →
    s.cfg.crcPoly.getLsbD 0 = true → data.length = len.toNat →
    (k = 2 ∨ k = 3 ∨ (5 ≤ k ∧ k < 5 + data.length)) →
    (frameBytes s.cfg cmd addr len data)[k]? ≠ some b →
    s.linkIn = ((frameBytes s.cfg cmd addr len data).set k b).map .byte ++ rest →
    ∃ u, Runs (7 + data.length) t u ∧ u.status = .error .frameCorruption ∧ u.rxValid = false ∧
      u.NoResult ∧ u.busy = false ∧ u.linkIn = rest

/-- The round trip: what a SEND of a format D frame puts on the link, given to `RECV ANY` with no
timeout in it, is delivered with the same command, address, length and data (41_serializer.md,
round-trip law). -/
def Obligations.RoundTrip : Prop :=
  ∀ (s s1 r r1 : State) (f : TxOperands) (pa : List PutAnswer) (rest : List GetAnswer),
    SendAdmitted s f → f.ndata = f.len → HostWaits s → exec .send s = .next s1 →
    s.putAnswers = List.replicate (7 + f.data.length) .accepted ++ pa →
    RecvAdmitted r → r.cfg = s.cfg → r.expectAny = true → 2 ≤ r.cfg.syncCap → HostWaits r →
    exec .recv r = .next r1 →
    ∃ t emitted, Runs (7 + f.data.length) s1 t ∧ t.status = .ok ∧ t.linkOut = s.linkOut ++ emitted ∧
      (r.linkIn = emitted.map .byte ++ rest →
        ∃ u, Runs (7 + f.data.length) r1 u ∧ u.status = .ok ∧ u.rxValid = true ∧
          u.rxCmd = s.txCmd ∧ u.rxAddr = s.txAddr ∧ u.rxLen = s.txLen ∧
          (∀ i, i < f.len.toNat → u.rxData.read i = s.txData.read i) ∧ u.linkIn = rest)

/-! ### Frame kinds -/

/-- READ_REQ is the SEND that carries it: no data, LENGTH the count of registers asked for. Nothing else
changes (R170; one step for the operand writes and the start is log 10). LENGTH past MAX_LEN is refused
(log 4). -/
def Obligations.ReadReqIsItsSend : Prop :=
  ∀ (s : State) (addr len : Byte),
    s.cfg.legal = true → s.linkOpen = true → s.busy = false →
    (len.toNat ≤ s.cfg.maxLen → exec (.readReq addr len) s = .next { s with
      txCmd := some s.cfg.cmdRead, txAddr := some addr, txLen := some len, txNData := some 0,
      txFrameLen := 7, txCrc := some s.cfg.crcInit, txIdx := 0, txState := .send }) ∧
    (s.cfg.maxLen < len.toNat → exec (.readReq addr len) s = .refused .wfShape)

/-- WRITE is the SEND that carries it: LENGTH data bytes in the first elements of TX_DATA, every other
element and register as before (R172). A data count that is not LENGTH is refused (`wf_shape` of R121,
the spec's own choice, D7), and so is LENGTH past MAX_LEN (log 4). One step for the operand writes and
the start is log 10. -/
def Obligations.WriteIsItsSend : Prop :=
  ∀ (s : State) (addr len : Byte) (data : List Byte),
    s.cfg.legal = true → s.linkOpen = true → s.busy = false →
    (data.length = len.toNat → len.toNat ≤ s.cfg.maxLen →
      ∃ t, exec (.write addr len data) s = .next t ∧
        (∀ i, i < data.length → t.txData.read i = data[i]?) ∧
        (∀ i, data.length ≤ i → t.txData.read i = s.txData.read i) ∧
        { t with txData := s.txData } = { s with
          txCmd := some s.cfg.cmdWrite, txAddr := some addr, txLen := some len, txNData := some len,
          txFrameLen := 5 + data.length + 2, txCrc := some s.cfg.crcInit, txIdx := 0,
          txState := .send }) ∧
    (data.length ≠ len.toNat ∨ s.cfg.maxLen < len.toNat →
      exec (.write addr len data) s = .refused .wfShape)

/-- READ_ACK and ANGLE_TLM arrive: the frame stands on the link's inbound side behind what is there,
and nothing in the block changes (R38, R171, R173), at any time, busy or idle, the link open or not, the
last of which is the model's choice. That the device may put any LENGTH before its data is R13 (log
11). -/
def Obligations.ResponseFramesArrive : Prop :=
  ∀ (s : State) (addr len : Byte) (data : List Byte),
    exec (.readAck addr len data) s = .next { s with
      linkIn := s.linkIn ++ (frameBytes s.cfg s.cfg.cmdRead addr len data).map .byte } ∧
    exec (.angleTlm addr len data) s = .next { s with
      linkIn := s.linkIn ++ (frameBytes s.cfg s.cfg.cmdAngleTlm addr len data).map .byte }

/-! ### The host's accesses -/

/-- While BUSY = 1 no operation starts and no operand register is written (the spec's own choice,
D22; for the checksum operations log 8). -/
def Obligations.BusyRefuses : Prop :=
  ∀ s : State, s.busy = true →
    (∃ r, exec .send s = .refused r) ∧ (∃ r, exec .recv s = .refused r) ∧
    (∀ a l, exec (.readReq a l) s = .refused .busy) ∧
    (∀ a l d, exec (.write a l d) s = .refused .busy) ∧
    exec .crcInit s = .refused .busy ∧ (∀ b, exec (.crcByte b) s = .refused .busy) ∧
    exec .crcOut s = .refused .busy ∧ (∀ bs, exec (.checksum bs) s = .refused .busy) ∧
    ∀ w, hostWrite w s = .refused .busy

/-- A host write gives its register the value and changes nothing else, for every register the host can
write (10_state.md sections 1 and 4). That ANY can be written alone is the model's choice (log 21), and
so is the fault of an element that does not exist (log 40). With a MAX_LEN above 255 there are elements
past 254, which is the model's choice too (log 4). -/
def Obligations.HostWritesItsRegister : Prop :=
  ∀ (s : State) (b : Byte) (any : Bool), s.busy = false →
    hostWrite (.txCmd b) s = .next { s with txCmd := some b } ∧
    hostWrite (.txAddr b) s = .next { s with txAddr := some b } ∧
    hostWrite (.txLen b) s = .next { s with txLen := some b } ∧
    hostWrite (.txNData b) s = .next { s with txNData := some b } ∧
    hostWrite (.expect any b) s = .next { s with expectAny := any, expectCmd := some b } ∧
    hostWrite (.expectAny any) s = .next { s with expectAny := any } ∧
    (∀ i, i < s.cfg.maxLen → ∃ t, hostWrite (.txData i b) s = .next t ∧ t.txData.read i = some b ∧
      (∀ j, j ≠ i → t.txData.read j = s.txData.read j) ∧ { t with txData := s.txData } = s) ∧
    (∀ i, s.cfg.maxLen ≤ i → hostWrite (.txData i b) s = .fault (.noSuchElement (.txData i)))

/-- A host read of a result register faults while RX_VALID = 0, and otherwise gives the frame's field; an
element of RX_DATA at or past RX_LEN holds no value (the spec's own choice of "no value", D18, D26).
It changes nothing but what the host is given. A read while BUSY = 1, a SEND being in flight with
RX_VALID = 1, is log 7 (R20 gives host access between operations). That the stop is a fault is log 20,
the 16 bits of the value are log 22, an element past MAX_LEN is log 40. -/
def Obligations.ResultRegistersReadOnlyWhenValid : Prop :=
  ∀ s : State,
    (s.rxValid = false →
      (∃ e, hostRead .rxCmd s = .fault e) ∧ (∃ e, hostRead .rxAddr s = .fault e) ∧
      (∃ e, hostRead .rxLen s = .fault e) ∧ ∀ i, ∃ e, hostRead (.rxData i) s = .fault e) ∧
    (∀ cmd addr len data, s.rxValid = true → s.RxHolds cmd addr len data →
      data.length = len.toNat →
      hostRead .rxCmd s = .next { s with result := some (cmd.setWidth 16) } ∧
      hostRead .rxAddr s = .next { s with result := some (addr.setWidth 16) } ∧
      hostRead .rxLen s = .next { s with result := some (len.setWidth 16) } ∧
      (∀ i b, i < s.cfg.maxLen → data[i]? = some b →
        hostRead (.rxData i) s = .next { s with result := some (b.setWidth 16) }) ∧
      ∀ i, data.length ≤ i ∨ s.cfg.maxLen ≤ i → ∃ e, hostRead (.rxData i) s = .fault e)

/-- What the host reads of every register but the result registers, in every state: STATUS as the code
of its kind (the numbers are the spec's own choice, D17), the flags as they are, SCAN_CNT modulo 2^16,
the operand registers and EXPECT.CMD as their value where they hold one and a fault where they do not
(R41), CRC_ACC and the sequencers' registers not at all (R20, R32). EXPECT read whole is ANY at bit 8
over CMD (R32); that its fields can also be read alone, and that the whole faults while CMD holds no
value, is log 21. A read while BUSY = 1 is log 7, the 16 bits log 22, the fault log 20 and 40, the
elements past 254 of a MAX_LEN above 255 log 4. -/
def Obligations.HostReadsItsRegister : Prop :=
  ∀ s : State,
    let reads := fun (r : Reg) (v : Option Byte) => hostRead r s =
      match v with
      | some b => .next { s with result := some (b.setWidth 16) }
      | none => .fault (.readNoValue r)
    reads .txCmd s.txCmd ∧ reads .txAddr s.txAddr ∧ reads .txLen s.txLen ∧
    reads .txNData s.txNData ∧ reads .expectCmd s.expectCmd ∧
    (∀ c, s.expectCmd = some c → hostRead .expect s = .next { s with
      result := some (if s.expectAny then 0x100 ||| c.setWidth 16 else c.setWidth 16) }) ∧
    (s.expectCmd = none → hostRead .expect s = .fault (.readNoValue .expect)) ∧
    (∀ i, i < s.cfg.maxLen → reads (.txData i) (s.txData.read i)) ∧
    (∀ i, s.cfg.maxLen ≤ i → hostRead (.txData i) s = .fault (.noSuchElement (.txData i))) ∧
    hostRead .crcAcc s = .fault (.noHostAccess .crcAcc) ∧
    hostRead .sequencer s = .fault (.noHostAccess .sequencer) ∧
    hostRead .status s = .next { s with result := some (match s.status with
      | .ok => 0
      | .error .transportTimeout => 1
      | .error .frameCorruption => 2
      | .error .protocolMismatch => 3
      | .error .transportWriteFailure => 4) } ∧
    hostRead .rxValid s = .next { s with result := some (if s.rxValid then 1 else 0) } ∧
    hostRead .busy s = .next { s with
      result := some (if s.txState = .idle ∧ s.rxState = .idle then 0 else 1) } ∧
    hostRead .expectAny s = .next { s with result := some (if s.expectAny then 1 else 0) } ∧
    hostRead .scanCnt s = .next { s with result := some (BitVec.ofNat 16 s.scanCnt) }

/-! ### Transactions and host conventions -/

/-- Register read under ENV_ACK_SHAPE and ENV_DEVICE_RX (premises: the shape is the spec's own
assumption, D23; that the device's checksum function is the block's is open, 93 U1): with the request
accepted and the device's acknowledgment next on the link, the host gets the values of the registers it
asked for. -/
def Obligations.RegisterReadReturnsTheRegisters : Prop :=
  ∀ (s : State) (deviceCrc : List Byte → Code) (m : Buffer) (addr len : Byte) (response : List Byte)
      (pa : List PutAnswer) (rest : List GetAnswer),
    s.cfg.legal = true → s.linkOpen = true → s.busy = false → 2 ≤ s.cfg.syncCap →
    len.toNat ≤ s.cfg.maxLen → EnvDeviceRx s.cfg deviceCrc →
    EnvAckShape s.cfg deviceCrc m addr len response →
    s.putAnswers = List.replicate 7 .accepted ++ pa → s.linkIn = response.map .byte ++ rest →
    ∃ data t, remoteRead m addr len = some data ∧
      registerRead addr len s = .next (.ok data, t) ∧ t.busy = false ∧ t.linkIn = rest ∧
      t.linkOut = s.linkOut ++ frameBytes s.cfg s.cfg.cmdRead addr len []

/-- The write-lock bracket (R196) where the unlock is sent whole: the re-lock is sent whether the
configuration write is sent whole or fails at byte `k`, after it, and the host then reports the failure
(R207; which error is reported after a re-lock is log 30). What follows a failed unlock is open (93 U6,
log 30), and a configuration write longer than MAX_LEN or 255, which is refused, is log 45. -/
def Obligations.BracketRelocksAfterTheWrite : Prop :=
  ∀ (s : State) (r : DevReg) (data : List Byte) (k : Nat) (pa : List PutAnswer),
    s.cfg.legal = true → s.linkOpen = true → s.busy = false → data.length ≤ 255 →
    1 ≤ s.cfg.maxLen → data.length ≤ s.cfg.maxLen →
    let frameOf := fun (q : DevReg) (d : List Byte) =>
      frameBytes s.cfg s.cfg.cmdWrite (Config.devAddr q) (BitVec.ofNat 8 d.length) d
    (s.putAnswers = List.replicate (8 + (7 + data.length) + 8) .accepted ++ pa →
      ∃ t, bracketWrite r data s = .next (.ok (), t) ∧ t.linkOut =
        s.linkOut ++ frameOf .lock [0] ++ frameOf r data ++ frameOf .lock [1]) ∧
    (k < 7 + data.length →
      s.putAnswers = List.replicate (8 + k) .accepted ++ .rejected ::
        (List.replicate 8 .accepted ++ pa) →
      ∃ t, bracketWrite r data s = .next (.error (.link .transportWriteFailure), t) ∧
        t.linkOut = s.linkOut ++ frameOf .lock [0] ++ (frameOf r data).take k ++
          frameOf .lock [1])

/-- The unit conversions: the bias of 128 both ways for every wire byte and every value that has one
(R197, R198), a position component in its range and SR's literal inverse-kinematics case (R200, R201).
That an offset outside [-16, 16] is converted as it is follows 93 U7 and is log 28. -/
def Obligations.UnitConversions : Prop :=
  toBiased (-16) = 112 ∧ ofBiased 138 = 10 ∧
  (∀ b : Byte, ofBiased b = (b.toNat : Int) - 128 ∧ toBiased (ofBiased b) = b) ∧
  (∀ v : Int, -128 ≤ v → v ≤ 127 → ((toBiased v).toNat : Int) = v + 128) ∧
  (∀ v : Int, -128 ≤ v → v ≤ 127 → ofBiased (toBiased v) = v) ∧
  (∀ v : Int, -1024 ≤ v → v ≤ 64511 →
    ∃ hi lo, positionBytes v = [hi, lo] ∧ (hi.toNat : Int) * 256 + lo.toNat = v + 1024) ∧
  ik6Data ⟨0, 200, 150⟩ ⟨0, 0, -1⟩ = [4, 0, 4, 200, 4, 150, 128, 128, 127]

/-! ### The life of the link -/

/-- The link is opened and closed between operations, which changes nothing else (R206, R251; the model's
choice that a busy block refuses it, and that it may be opened or closed again, log 27). On a link that is not open every operation that uses it
is refused (the spec's own choice, D25). -/
def Obligations.LinkOpensAndCloses : Prop :=
  ∀ s : State,
    (s.busy = false → perform .openLink s = .next { s with linkOpen := true } ∧
      perform .closeLink s = .next { s with linkOpen := false }) ∧
    (s.busy = true → perform .openLink s = .refused .busy ∧ perform .closeLink s = .refused .busy) ∧
    (s.linkOpen = false → (∃ r, exec .send s = .refused r) ∧ (∃ r, exec .recv s = .refused r) ∧
      (∀ a l, ∃ r, exec (.readReq a l) s = .refused r) ∧
      ∀ a l d, ∃ r, exec (.write a l d) s = .refused r)
end

