-- ==== Sys2Proof/Laws/Crc.lean ====
section
/-! SUPPORT. The small laws of the Checksum Engine. -/

namespace Sys2Proof.Machine

@[simp] theorem crcReg_nil (poly reg : Code) : crcReg poly reg [] = reg := rfl

@[simp] theorem crcReg_cons (poly reg : Code) (b : Byte) (s : List Byte) :
    crcReg poly reg (b :: s) = crcReg poly (byteStep poly reg b) s := rfl

/-- The register after one sequence and then another (R115). -/
theorem crcReg_append (poly reg : Code) (s t : List Byte) :
    crcReg poly reg (s ++ t) = crcReg poly (crcReg poly reg s) t := by
  simp [crcReg, List.foldl_append]

theorem crcReg_snoc (poly reg : Code) (s : List Byte) (b : Byte) :
    crcReg poly reg (s ++ [b]) = byteStep poly (crcReg poly reg s) b := by
  rw [crcReg_append]; rfl

theorem rev8_getLsbD (b : Byte) {i : Nat} (h : i < 8) : (rev8 b).getLsbD i = b.getLsbD (7 - i) := by
  rw [rev8, BitVec.getLsbD_reverse, BitVec.getMsbD_eq_getLsbD]
  simp [h]

theorem rev16_getLsbD (w : Code) {i : Nat} (h : i < 16) :
    (rev16 w).getLsbD i = w.getLsbD (15 - i) := by
  rw [rev16, BitVec.getLsbD_reverse, BitVec.getMsbD_eq_getLsbD]
  simp [h]

theorem rev8_rev8 (b : Byte) : rev8 (rev8 b) = b := by
  apply BitVec.eq_of_getLsbD_eq
  intro i h
  rw [rev8_getLsbD _ h, rev8_getLsbD _ (by omega)]
  congr 1; omega

theorem rev16_rev16 (w : Code) : rev16 (rev16 w) = w := by
  apply BitVec.eq_of_getLsbD_eq
  intro i h
  rw [rev16_getLsbD _ h, rev16_getLsbD _ (by omega)]
  congr 1; omega

theorem rev16_injective {v w : Code} (h : rev16 v = rev16 w) : v = w := by
  rw [← rev16_rev16 v, h, rev16_rev16]

/-- A code is its two halves. -/
theorem code_eq_of_halves {v w : Code} (hlo : lo8 v = lo8 w) (hhi : hi8 v = hi8 w) : v = w := by
  apply BitVec.eq_of_getLsbD_eq
  intro i h
  by_cases h8 : i < 8
  · have := congrArg (fun b => b.getLsbD i) hlo
    simpa [lo8, BitVec.getLsbD_extractLsb', h8] using this
  · have := congrArg (fun b => b.getLsbD (i - 8)) hhi
    simpa [hi8, BitVec.getLsbD_extractLsb', show i - 8 < 8 by omega,
      show 8 + (i - 8) = i by omega] using this

end Sys2Proof.Machine
end

