-- ==== Sys2Proof/Laws/Memory.lean ====
section
/-! SUPPORT. The laws of the data buffers: read after write, and the canonical form every write
keeps. -/

namespace Sys2Proof.Machine

@[simp] theorem Buffer.read_nil (i : Nat) : Buffer.read [] i = none := rfl

theorem Buffer.read_write_same (m : Buffer) (i : Nat) (b : Byte) : (m.write i b).read i = some b := by
  induction m with
  | nil => simp [Buffer.write, Buffer.read]
  | cons e m ih =>
    obtain ⟨a, c⟩ := e
    unfold Buffer.write
    split
    · simp [Buffer.read]
    · split
      · simp [Buffer.read]
      · have h : a ≠ i := fun h => ‹¬i = a› h.symm
        simp [Buffer.read, h, ih]

theorem Buffer.read_write_other (m : Buffer) (i j : Nat) (b : Byte) (h : j ≠ i) :
    (m.write i b).read j = m.read j := by
  induction m with
  | nil => simp [Buffer.write, Buffer.read, h.symm]
  | cons e m ih =>
    obtain ⟨a, c⟩ := e
    unfold Buffer.write
    split
    · simp [Buffer.read, h.symm]
    · split
      · subst i; simp [Buffer.read, h.symm]
      · simp [Buffer.read, ih]

/-- One statement of both: what an element reads as after a write. -/
theorem Buffer.read_write (m : Buffer) (i j : Nat) (b : Byte) :
    (m.write i b).read j = if j = i then some b else m.read j := by
  split
  · subst j; exact m.read_write_same i b
  · exact m.read_write_other i j b ‹_›

theorem Buffer.wfFrom_mono {size : Nat} {m : Buffer} {i j : Nat} (hij : i ≤ j)
    (h : Buffer.wfFrom size m j = true) : Buffer.wfFrom size m i = true := by
  cases m with
  | nil => rfl
  | cons e m =>
    obtain ⟨a, c⟩ := e
    simp only [Buffer.wfFrom, Bool.and_eq_true, decide_eq_true_eq] at h ⊢
    exact ⟨⟨by omega, h.1.2⟩, h.2⟩

theorem Buffer.wfFrom_write {size : Nat} {m : Buffer} {k i : Nat} {b : Byte}
    (h : Buffer.wfFrom size m k = true) (hk : k ≤ i) (hi : i < size) :
    Buffer.wfFrom size (m.write i b) k = true := by
  induction m generalizing k with
  | nil => simp [Buffer.write, Buffer.wfFrom, hk, hi]
  | cons e m ih =>
    obtain ⟨a, c⟩ := e
    simp only [Buffer.wfFrom, Bool.and_eq_true, decide_eq_true_eq] at h
    unfold Buffer.write
    split
    · simp only [Buffer.wfFrom, Bool.and_eq_true, decide_eq_true_eq]
      exact ⟨⟨hk, hi⟩, ⟨by omega, h.1.2⟩, h.2⟩
    · split
      · subst a
        simp only [Buffer.wfFrom, Bool.and_eq_true, decide_eq_true_eq]
        exact ⟨⟨hk, hi⟩, h.2⟩
      · simp only [Buffer.wfFrom, Bool.and_eq_true, decide_eq_true_eq]
        exact ⟨h.1, ih h.2 (by omega)⟩

/-- A write of an element that exists keeps the canonical form. -/
theorem Buffer.wf_write {size : Nat} {m : Buffer} {i : Nat} {b : Byte} (h : m.wf size = true)
    (hi : i < size) : (m.write i b).wf size = true :=
  Buffer.wfFrom_write h (Nat.zero_le i) hi

/-- What an element reads as after a store, past the end of the buffer too. -/
theorem Buffer.read_store (size : Nat) (m : Buffer) (i j : Nat) (b : Byte) :
    (m.store size i b).read j = if j = i ∧ i < size then some b else m.read j := by
  unfold Buffer.store
  by_cases h : i < size <;> simp [h, Buffer.read_write]

/-- A store keeps the canonical form, at any index. -/
theorem Buffer.wf_store {size : Nat} {m : Buffer} {i : Nat} {b : Byte} (h : m.wf size = true) :
    (m.store size i b).wf size = true := by
  unfold Buffer.store
  split
  · exact Buffer.wf_write h ‹_›
  · exact h

theorem Buffer.wf_writeFrom {size : Nat} {m : Buffer} {i : Nat} {l : List Byte}
    (h : m.wf size = true) (hi : i + l.length ≤ size) : (m.writeFrom i l).wf size = true := by
  induction l generalizing m i with
  | nil => exact h
  | cons b l ih =>
    simp only [List.length_cons] at hi
    exact ih (Buffer.wf_write h (by omega)) (by omega)

/-- What an element reads as after a run of writes. -/
theorem Buffer.read_writeFrom (m : Buffer) (i j : Nat) (l : List Byte) :
    (m.writeFrom i l).read j = if i ≤ j ∧ j < i + l.length then l[j - i]? else m.read j := by
  induction l generalizing m i with
  | nil =>
    simp [Buffer.writeFrom]
  | cons b l ih =>
    simp only [Buffer.writeFrom, ih, Buffer.read_write, List.length_cons]
    by_cases h1 : j = i
    · subst j
      simp
    · by_cases h2 : i + 1 ≤ j
      · obtain ⟨d, rfl⟩ : ∃ d, j = i + 1 + d := ⟨j - (i + 1), by omega⟩
        have e1 : i + 1 + d - (i + 1) = d := by omega
        have e2 : i + 1 + d - i = d + 1 := by omega
        have e3 : (i + 1 ≤ i + 1 + d ∧ i + 1 + d < i + 1 + l.length) ↔
            (i ≤ i + 1 + d ∧ i + 1 + d < i + (l.length + 1)) := by omega
        simp only [e1, e2, e3, List.getElem?_cons_succ, h1, if_false]
      · have e3 : ¬(i + 1 ≤ j ∧ j < i + 1 + l.length) := by omega
        have e4 : ¬(i ≤ j ∧ j < i + (l.length + 1)) := by omega
        rw [if_neg e3, if_neg e4, if_neg h1]

/-- A buffer whose elements from `i` are these bytes reads as these bytes. -/
theorem Buffer.readFrom_eq_some {m : Buffer} {i n : Nat} {l : List Byte} :
    m.readFrom i n = some l ↔ l.length = n ∧ ∀ k, k < n → m.read (i + k) = l[k]? := by
  induction n generalizing i l with
  | zero =>
    simp only [Buffer.readFrom, Option.some.injEq]
    constructor
    · rintro rfl
      exact ⟨rfl, fun k hk => absurd hk (Nat.not_lt_zero k)⟩
    · rintro ⟨h, -⟩
      exact (List.eq_nil_of_length_eq_zero h).symm
  | succ n ih =>
    unfold Buffer.readFrom
    constructor
    · intro h
      split at h
      · rename_i b l' hb hl
        obtain rfl : b :: l' = l := by simpa using h
        obtain ⟨h1, h2⟩ := ih.1 hl
        refine ⟨by simp [h1], fun k hk => ?_⟩
        cases k with
        | zero => simpa using hb
        | succ k =>
          have := h2 k (by omega)
          rw [show i + (k + 1) = i + 1 + k by omega]
          simpa using this
      · cases h
    · rintro ⟨hlen, hread⟩
      cases l with
      | nil => simp at hlen
      | cons b l' =>
        have h0 : m.read i = some b := by simpa using hread 0 (by omega)
        have hl : m.readFrom (i + 1) n = some l' := by
          refine ih.2 ⟨by simpa using hlen, fun k hk => ?_⟩
          have := hread (k + 1) (by omega)
          rw [show i + 1 + k = i + (k + 1) by omega]
          simpa using this
        rw [h0, hl]

theorem Buffer.readRange_eq_some {m : Buffer} {n : Nat} {l : List Byte} :
    m.readRange n = some l ↔ l.length = n ∧ ∀ k, k < n → m.read k = l[k]? := by
  simpa [Buffer.readRange] using Buffer.readFrom_eq_some (m := m) (i := 0) (n := n) (l := l)

/-- The bytes written to a buffer's front are the bytes read back from it. -/
theorem Buffer.readRange_writeFrom (m : Buffer) (l : List Byte) :
    (m.writeFrom 0 l).readRange l.length = some l := by
  refine Buffer.readRange_eq_some.2 ⟨rfl, fun k hk => ?_⟩
  simp [Buffer.read_writeFrom, hk]

/-- After reset both buffers list nothing, which is the canonical form (R41). -/
theorem reset_buffers_wf (size : Nat) :
    State.reset.txData.wf size = true ∧ State.reset.rxData.wf size = true := ⟨rfl, rfl⟩

theorem Buffer.Holds.nil (size : Nat) : Buffer.Holds size [] [] := ⟨rfl, fun i => by simp⟩

/-- Storing the next byte of a sequence (R152). -/
theorem Buffer.Holds.snoc {size : Nat} {m : Buffer} {l : List Byte} {b : Byte} (h : m.Holds size l) :
    (m.store size l.length b).Holds size (l ++ [b]) := by
  refine ⟨Buffer.wf_store h.1, fun i => ?_⟩
  rw [Buffer.read_store, h.2 i]
  by_cases h1 : i = l.length
  · subst i; simp
  · simp only [h1, false_and, if_false]
    by_cases h2 : i < l.length
    · rw [List.getElem?_append_left h2]
    · rw [List.getElem?_eq_none (by omega), List.getElem?_eq_none (by simp; omega)]

/-- Consecutive stores from element `i`, as a RECV makes them. -/
def Buffer.storeFrom (size : Nat) (m : Buffer) : Nat → List Byte → Buffer
  | _, [] => m
  | i, b :: bs => Buffer.storeFrom size (m.store size i b) (i + 1) bs

/-- Storing the rest of a sequence (R152). -/
theorem Buffer.Holds.storeFrom {size : Nat} {m : Buffer} {done l : List Byte}
    (h : m.Holds size done) : (m.storeFrom size done.length l).Holds size (done ++ l) := by
  induction l generalizing m done with
  | nil => simpa [Buffer.storeFrom] using h
  | cons b l ih =>
    have := ih (h.snoc (b := b))
    simpa [Buffer.storeFrom] using this

/-- The bytes written from element 0 of an empty buffer are what it holds. -/
theorem Buffer.holds_writeFrom_nil {size : Nat} {l : List Byte} (h : l.length ≤ size) :
    (Buffer.writeFrom [] 0 l).Holds size l := by
  refine ⟨Buffer.wf_writeFrom rfl (by simpa using h), fun i => ?_⟩
  rw [Buffer.read_writeFrom]
  by_cases hi : i < l.length
  · simp [hi, show i < size by omega]
  · simp [hi]

/-- Below the end of the buffer each element is its byte. -/
theorem Buffer.Holds.read {size : Nat} {m : Buffer} {l : List Byte} (h : m.Holds size l) {i : Nat}
    (hi : i < size) : m.read i = l[i]? := by
  rw [h.2 i, if_pos hi]

theorem Buffer.Holds.readRange {size : Nat} {m : Buffer} {l : List Byte} (h : m.Holds size l)
    (hl : l.length ≤ size) : m.readRange l.length = some l :=
  Buffer.readRange_eq_some.2 ⟨rfl, fun _ hk => h.read (by omega)⟩

end Sys2Proof.Machine
end

