-- ==== Sys2Proof/Laws/State.lean ====
section
/-! SUPPORT. One lemma for each field of each named update of the state, so that no proof unfolds a
record update. -/

namespace Sys2Proof.Machine

/-! ### startSend -/

@[simp] theorem startSend_cfg (n : Nat) (s : State) :
    (startSend n s).cfg = s.cfg := rfl
@[simp] theorem startSend_txCmd (n : Nat) (s : State) :
    (startSend n s).txCmd = s.txCmd := rfl
@[simp] theorem startSend_txAddr (n : Nat) (s : State) :
    (startSend n s).txAddr = s.txAddr := rfl
@[simp] theorem startSend_txLen (n : Nat) (s : State) :
    (startSend n s).txLen = s.txLen := rfl
@[simp] theorem startSend_txNData (n : Nat) (s : State) :
    (startSend n s).txNData = s.txNData := rfl
@[simp] theorem startSend_txData (n : Nat) (s : State) :
    (startSend n s).txData = s.txData := rfl
@[simp] theorem startSend_rxCmd (n : Nat) (s : State) :
    (startSend n s).rxCmd = s.rxCmd := rfl
@[simp] theorem startSend_rxAddr (n : Nat) (s : State) :
    (startSend n s).rxAddr = s.rxAddr := rfl
@[simp] theorem startSend_rxLen (n : Nat) (s : State) :
    (startSend n s).rxLen = s.rxLen := rfl
@[simp] theorem startSend_rxData (n : Nat) (s : State) :
    (startSend n s).rxData = s.rxData := rfl
@[simp] theorem startSend_crcAcc (n : Nat) (s : State) :
    (startSend n s).crcAcc = s.crcAcc := rfl
@[simp] theorem startSend_txState (n : Nat) (s : State) :
    (startSend n s).txState = .send := rfl
@[simp] theorem startSend_txIdx (n : Nat) (s : State) :
    (startSend n s).txIdx = 0 := rfl
@[simp] theorem startSend_txFrameLen (n : Nat) (s : State) :
    (startSend n s).txFrameLen = 5 + n + 2 := rfl
@[simp] theorem startSend_txCrc (n : Nat) (s : State) :
    (startSend n s).txCrc = some s.cfg.crcInit := rfl
@[simp] theorem startSend_rxState (n : Nat) (s : State) :
    (startSend n s).rxState = s.rxState := rfl
@[simp] theorem startSend_rxIdx (n : Nat) (s : State) :
    (startSend n s).rxIdx = s.rxIdx := rfl
@[simp] theorem startSend_rxCrc (n : Nat) (s : State) :
    (startSend n s).rxCrc = s.rxCrc := rfl
@[simp] theorem startSend_rxCkLo (n : Nat) (s : State) :
    (startSend n s).rxCkLo = s.rxCkLo := rfl
@[simp] theorem startSend_rxCkHi (n : Nat) (s : State) :
    (startSend n s).rxCkHi = s.rxCkHi := rfl
@[simp] theorem startSend_rxValid (n : Nat) (s : State) :
    (startSend n s).rxValid = s.rxValid := rfl
@[simp] theorem startSend_status (n : Nat) (s : State) :
    (startSend n s).status = s.status := rfl
@[simp] theorem startSend_expectAny (n : Nat) (s : State) :
    (startSend n s).expectAny = s.expectAny := rfl
@[simp] theorem startSend_expectCmd (n : Nat) (s : State) :
    (startSend n s).expectCmd = s.expectCmd := rfl
@[simp] theorem startSend_scanCnt (n : Nat) (s : State) :
    (startSend n s).scanCnt = s.scanCnt := rfl
@[simp] theorem startSend_sawSync1 (n : Nat) (s : State) :
    (startSend n s).sawSync1 = s.sawSync1 := rfl
@[simp] theorem startSend_linkOpen (n : Nat) (s : State) :
    (startSend n s).linkOpen = s.linkOpen := rfl
@[simp] theorem startSend_linkIn (n : Nat) (s : State) :
    (startSend n s).linkIn = s.linkIn := rfl
@[simp] theorem startSend_linkGets (n : Nat) (s : State) :
    (startSend n s).linkGets = s.linkGets := rfl
@[simp] theorem startSend_putAnswers (n : Nat) (s : State) :
    (startSend n s).putAnswers = s.putAnswers := rfl
@[simp] theorem startSend_linkPuts (n : Nat) (s : State) :
    (startSend n s).linkPuts = s.linkPuts := rfl
@[simp] theorem startSend_linkOut (n : Nat) (s : State) :
    (startSend n s).linkOut = s.linkOut := rfl
@[simp] theorem startSend_host (n : Nat) (s : State) :
    (startSend n s).host = s.host := rfl
@[simp] theorem startSend_result (n : Nat) (s : State) :
    (startSend n s).result = s.result := rfl

/-! ### completeSend -/

@[simp] theorem completeSend_cfg (s : State) :
    (completeSend s).cfg = s.cfg := rfl
@[simp] theorem completeSend_txCmd (s : State) :
    (completeSend s).txCmd = s.txCmd := rfl
@[simp] theorem completeSend_txAddr (s : State) :
    (completeSend s).txAddr = s.txAddr := rfl
@[simp] theorem completeSend_txLen (s : State) :
    (completeSend s).txLen = s.txLen := rfl
@[simp] theorem completeSend_txNData (s : State) :
    (completeSend s).txNData = s.txNData := rfl
@[simp] theorem completeSend_txData (s : State) :
    (completeSend s).txData = s.txData := rfl
@[simp] theorem completeSend_rxCmd (s : State) :
    (completeSend s).rxCmd = s.rxCmd := rfl
@[simp] theorem completeSend_rxAddr (s : State) :
    (completeSend s).rxAddr = s.rxAddr := rfl
@[simp] theorem completeSend_rxLen (s : State) :
    (completeSend s).rxLen = s.rxLen := rfl
@[simp] theorem completeSend_rxData (s : State) :
    (completeSend s).rxData = s.rxData := rfl
@[simp] theorem completeSend_crcAcc (s : State) :
    (completeSend s).crcAcc = s.crcAcc := rfl
@[simp] theorem completeSend_txState (s : State) :
    (completeSend s).txState = .idle := rfl
@[simp] theorem completeSend_txIdx (s : State) :
    (completeSend s).txIdx = 0 := rfl
@[simp] theorem completeSend_txFrameLen (s : State) :
    (completeSend s).txFrameLen = s.txFrameLen := rfl
@[simp] theorem completeSend_txCrc (s : State) :
    (completeSend s).txCrc = s.txCrc := rfl
@[simp] theorem completeSend_rxState (s : State) :
    (completeSend s).rxState = s.rxState := rfl
@[simp] theorem completeSend_rxIdx (s : State) :
    (completeSend s).rxIdx = s.rxIdx := rfl
@[simp] theorem completeSend_rxCrc (s : State) :
    (completeSend s).rxCrc = s.rxCrc := rfl
@[simp] theorem completeSend_rxCkLo (s : State) :
    (completeSend s).rxCkLo = s.rxCkLo := rfl
@[simp] theorem completeSend_rxCkHi (s : State) :
    (completeSend s).rxCkHi = s.rxCkHi := rfl
@[simp] theorem completeSend_rxValid (s : State) :
    (completeSend s).rxValid = s.rxValid := rfl
@[simp] theorem completeSend_status (s : State) :
    (completeSend s).status = .ok := rfl
@[simp] theorem completeSend_expectAny (s : State) :
    (completeSend s).expectAny = s.expectAny := rfl
@[simp] theorem completeSend_expectCmd (s : State) :
    (completeSend s).expectCmd = s.expectCmd := rfl
@[simp] theorem completeSend_scanCnt (s : State) :
    (completeSend s).scanCnt = s.scanCnt := rfl
@[simp] theorem completeSend_sawSync1 (s : State) :
    (completeSend s).sawSync1 = s.sawSync1 := rfl
@[simp] theorem completeSend_linkOpen (s : State) :
    (completeSend s).linkOpen = s.linkOpen := rfl
@[simp] theorem completeSend_linkIn (s : State) :
    (completeSend s).linkIn = s.linkIn := rfl
@[simp] theorem completeSend_linkGets (s : State) :
    (completeSend s).linkGets = s.linkGets := rfl
@[simp] theorem completeSend_putAnswers (s : State) :
    (completeSend s).putAnswers = s.putAnswers := rfl
@[simp] theorem completeSend_linkPuts (s : State) :
    (completeSend s).linkPuts = s.linkPuts := rfl
@[simp] theorem completeSend_linkOut (s : State) :
    (completeSend s).linkOut = s.linkOut := rfl
@[simp] theorem completeSend_host (s : State) :
    (completeSend s).host = s.host := rfl
@[simp] theorem completeSend_result (s : State) :
    (completeSend s).result = s.result := rfl

/-! ### startRecv -/

@[simp] theorem startRecv_cfg (s : State) :
    (startRecv s).cfg = s.cfg := rfl
@[simp] theorem startRecv_txCmd (s : State) :
    (startRecv s).txCmd = s.txCmd := rfl
@[simp] theorem startRecv_txAddr (s : State) :
    (startRecv s).txAddr = s.txAddr := rfl
@[simp] theorem startRecv_txLen (s : State) :
    (startRecv s).txLen = s.txLen := rfl
@[simp] theorem startRecv_txNData (s : State) :
    (startRecv s).txNData = s.txNData := rfl
@[simp] theorem startRecv_txData (s : State) :
    (startRecv s).txData = s.txData := rfl
@[simp] theorem startRecv_rxCmd (s : State) :
    (startRecv s).rxCmd = none := rfl
@[simp] theorem startRecv_rxAddr (s : State) :
    (startRecv s).rxAddr = none := rfl
@[simp] theorem startRecv_rxLen (s : State) :
    (startRecv s).rxLen = none := rfl
@[simp] theorem startRecv_rxData (s : State) :
    (startRecv s).rxData = [] := rfl
@[simp] theorem startRecv_crcAcc (s : State) :
    (startRecv s).crcAcc = s.crcAcc := rfl
@[simp] theorem startRecv_txState (s : State) :
    (startRecv s).txState = s.txState := rfl
@[simp] theorem startRecv_txIdx (s : State) :
    (startRecv s).txIdx = s.txIdx := rfl
@[simp] theorem startRecv_txFrameLen (s : State) :
    (startRecv s).txFrameLen = s.txFrameLen := rfl
@[simp] theorem startRecv_txCrc (s : State) :
    (startRecv s).txCrc = s.txCrc := rfl
@[simp] theorem startRecv_rxState (s : State) :
    (startRecv s).rxState = .search := rfl
@[simp] theorem startRecv_rxIdx (s : State) :
    (startRecv s).rxIdx = 0 := rfl
@[simp] theorem startRecv_rxCrc (s : State) :
    (startRecv s).rxCrc = s.rxCrc := rfl
@[simp] theorem startRecv_rxCkLo (s : State) :
    (startRecv s).rxCkLo = none := rfl
@[simp] theorem startRecv_rxCkHi (s : State) :
    (startRecv s).rxCkHi = none := rfl
@[simp] theorem startRecv_rxValid (s : State) :
    (startRecv s).rxValid = false := rfl
@[simp] theorem startRecv_status (s : State) :
    (startRecv s).status = s.status := rfl
@[simp] theorem startRecv_expectAny (s : State) :
    (startRecv s).expectAny = s.expectAny := rfl
@[simp] theorem startRecv_expectCmd (s : State) :
    (startRecv s).expectCmd = s.expectCmd := rfl
@[simp] theorem startRecv_scanCnt (s : State) :
    (startRecv s).scanCnt = 0 := rfl
@[simp] theorem startRecv_sawSync1 (s : State) :
    (startRecv s).sawSync1 = false := rfl
@[simp] theorem startRecv_linkOpen (s : State) :
    (startRecv s).linkOpen = s.linkOpen := rfl
@[simp] theorem startRecv_linkIn (s : State) :
    (startRecv s).linkIn = s.linkIn := rfl
@[simp] theorem startRecv_linkGets (s : State) :
    (startRecv s).linkGets = s.linkGets := rfl
@[simp] theorem startRecv_putAnswers (s : State) :
    (startRecv s).putAnswers = s.putAnswers := rfl
@[simp] theorem startRecv_linkPuts (s : State) :
    (startRecv s).linkPuts = s.linkPuts := rfl
@[simp] theorem startRecv_linkOut (s : State) :
    (startRecv s).linkOut = s.linkOut := rfl
@[simp] theorem startRecv_host (s : State) :
    (startRecv s).host = s.host := rfl
@[simp] theorem startRecv_result (s : State) :
    (startRecv s).result = s.result := rfl

/-! ### syncFound -/

@[simp] theorem syncFound_cfg (s : State) :
    (syncFound s).cfg = s.cfg := rfl
@[simp] theorem syncFound_txCmd (s : State) :
    (syncFound s).txCmd = s.txCmd := rfl
@[simp] theorem syncFound_txAddr (s : State) :
    (syncFound s).txAddr = s.txAddr := rfl
@[simp] theorem syncFound_txLen (s : State) :
    (syncFound s).txLen = s.txLen := rfl
@[simp] theorem syncFound_txNData (s : State) :
    (syncFound s).txNData = s.txNData := rfl
@[simp] theorem syncFound_txData (s : State) :
    (syncFound s).txData = s.txData := rfl
@[simp] theorem syncFound_rxCmd (s : State) :
    (syncFound s).rxCmd = s.rxCmd := rfl
@[simp] theorem syncFound_rxAddr (s : State) :
    (syncFound s).rxAddr = s.rxAddr := rfl
@[simp] theorem syncFound_rxLen (s : State) :
    (syncFound s).rxLen = s.rxLen := rfl
@[simp] theorem syncFound_rxData (s : State) :
    (syncFound s).rxData = s.rxData := rfl
@[simp] theorem syncFound_crcAcc (s : State) :
    (syncFound s).crcAcc = s.crcAcc := rfl
@[simp] theorem syncFound_txState (s : State) :
    (syncFound s).txState = s.txState := rfl
@[simp] theorem syncFound_txIdx (s : State) :
    (syncFound s).txIdx = s.txIdx := rfl
@[simp] theorem syncFound_txFrameLen (s : State) :
    (syncFound s).txFrameLen = s.txFrameLen := rfl
@[simp] theorem syncFound_txCrc (s : State) :
    (syncFound s).txCrc = s.txCrc := rfl
@[simp] theorem syncFound_rxState (s : State) :
    (syncFound s).rxState = .header := rfl
@[simp] theorem syncFound_rxIdx (s : State) :
    (syncFound s).rxIdx = 0 := rfl
@[simp] theorem syncFound_rxCrc (s : State) :
    (syncFound s).rxCrc = some (crcReg s.cfg.crcPoly s.cfg.crcInit [s.cfg.sync1, s.cfg.sync2]) := rfl
@[simp] theorem syncFound_rxCkLo (s : State) :
    (syncFound s).rxCkLo = s.rxCkLo := rfl
@[simp] theorem syncFound_rxCkHi (s : State) :
    (syncFound s).rxCkHi = s.rxCkHi := rfl
@[simp] theorem syncFound_rxValid (s : State) :
    (syncFound s).rxValid = s.rxValid := rfl
@[simp] theorem syncFound_status (s : State) :
    (syncFound s).status = s.status := rfl
@[simp] theorem syncFound_expectAny (s : State) :
    (syncFound s).expectAny = s.expectAny := rfl
@[simp] theorem syncFound_expectCmd (s : State) :
    (syncFound s).expectCmd = s.expectCmd := rfl
@[simp] theorem syncFound_scanCnt (s : State) :
    (syncFound s).scanCnt = s.scanCnt := rfl
@[simp] theorem syncFound_sawSync1 (s : State) :
    (syncFound s).sawSync1 = s.sawSync1 := rfl
@[simp] theorem syncFound_linkOpen (s : State) :
    (syncFound s).linkOpen = s.linkOpen := rfl
@[simp] theorem syncFound_linkIn (s : State) :
    (syncFound s).linkIn = s.linkIn := rfl
@[simp] theorem syncFound_linkGets (s : State) :
    (syncFound s).linkGets = s.linkGets := rfl
@[simp] theorem syncFound_putAnswers (s : State) :
    (syncFound s).putAnswers = s.putAnswers := rfl
@[simp] theorem syncFound_linkPuts (s : State) :
    (syncFound s).linkPuts = s.linkPuts := rfl
@[simp] theorem syncFound_linkOut (s : State) :
    (syncFound s).linkOut = s.linkOut := rfl
@[simp] theorem syncFound_host (s : State) :
    (syncFound s).host = s.host := rfl
@[simp] theorem syncFound_result (s : State) :
    (syncFound s).result = s.result := rfl

/-! ### completeRecv -/

@[simp] theorem completeRecv_cfg (s : State) :
    (completeRecv s).cfg = s.cfg := rfl
@[simp] theorem completeRecv_txCmd (s : State) :
    (completeRecv s).txCmd = s.txCmd := rfl
@[simp] theorem completeRecv_txAddr (s : State) :
    (completeRecv s).txAddr = s.txAddr := rfl
@[simp] theorem completeRecv_txLen (s : State) :
    (completeRecv s).txLen = s.txLen := rfl
@[simp] theorem completeRecv_txNData (s : State) :
    (completeRecv s).txNData = s.txNData := rfl
@[simp] theorem completeRecv_txData (s : State) :
    (completeRecv s).txData = s.txData := rfl
@[simp] theorem completeRecv_rxCmd (s : State) :
    (completeRecv s).rxCmd = s.rxCmd := rfl
@[simp] theorem completeRecv_rxAddr (s : State) :
    (completeRecv s).rxAddr = s.rxAddr := rfl
@[simp] theorem completeRecv_rxLen (s : State) :
    (completeRecv s).rxLen = s.rxLen := rfl
@[simp] theorem completeRecv_rxData (s : State) :
    (completeRecv s).rxData = s.rxData := rfl
@[simp] theorem completeRecv_crcAcc (s : State) :
    (completeRecv s).crcAcc = s.crcAcc := rfl
@[simp] theorem completeRecv_txState (s : State) :
    (completeRecv s).txState = s.txState := rfl
@[simp] theorem completeRecv_txIdx (s : State) :
    (completeRecv s).txIdx = s.txIdx := rfl
@[simp] theorem completeRecv_txFrameLen (s : State) :
    (completeRecv s).txFrameLen = s.txFrameLen := rfl
@[simp] theorem completeRecv_txCrc (s : State) :
    (completeRecv s).txCrc = s.txCrc := rfl
@[simp] theorem completeRecv_rxState (s : State) :
    (completeRecv s).rxState = .idle := rfl
@[simp] theorem completeRecv_rxIdx (s : State) :
    (completeRecv s).rxIdx = 0 := rfl
@[simp] theorem completeRecv_rxCrc (s : State) :
    (completeRecv s).rxCrc = s.rxCrc := rfl
@[simp] theorem completeRecv_rxCkLo (s : State) :
    (completeRecv s).rxCkLo = s.rxCkLo := rfl
@[simp] theorem completeRecv_rxCkHi (s : State) :
    (completeRecv s).rxCkHi = s.rxCkHi := rfl
@[simp] theorem completeRecv_rxValid (s : State) :
    (completeRecv s).rxValid = true := rfl
@[simp] theorem completeRecv_status (s : State) :
    (completeRecv s).status = .ok := rfl
@[simp] theorem completeRecv_expectAny (s : State) :
    (completeRecv s).expectAny = s.expectAny := rfl
@[simp] theorem completeRecv_expectCmd (s : State) :
    (completeRecv s).expectCmd = s.expectCmd := rfl
@[simp] theorem completeRecv_scanCnt (s : State) :
    (completeRecv s).scanCnt = s.scanCnt := rfl
@[simp] theorem completeRecv_sawSync1 (s : State) :
    (completeRecv s).sawSync1 = s.sawSync1 := rfl
@[simp] theorem completeRecv_linkOpen (s : State) :
    (completeRecv s).linkOpen = s.linkOpen := rfl
@[simp] theorem completeRecv_linkIn (s : State) :
    (completeRecv s).linkIn = s.linkIn := rfl
@[simp] theorem completeRecv_linkGets (s : State) :
    (completeRecv s).linkGets = s.linkGets := rfl
@[simp] theorem completeRecv_putAnswers (s : State) :
    (completeRecv s).putAnswers = s.putAnswers := rfl
@[simp] theorem completeRecv_linkPuts (s : State) :
    (completeRecv s).linkPuts = s.linkPuts := rfl
@[simp] theorem completeRecv_linkOut (s : State) :
    (completeRecv s).linkOut = s.linkOut := rfl
@[simp] theorem completeRecv_host (s : State) :
    (completeRecv s).host = s.host := rfl
@[simp] theorem completeRecv_result (s : State) :
    (completeRecv s).result = s.result := rfl

/-! ### raiseSend -/

@[simp] theorem raiseSend_cfg (e : ErrorKind) (s : State) :
    (raise .send e s).cfg = s.cfg := rfl
@[simp] theorem raiseSend_txCmd (e : ErrorKind) (s : State) :
    (raise .send e s).txCmd = s.txCmd := rfl
@[simp] theorem raiseSend_txAddr (e : ErrorKind) (s : State) :
    (raise .send e s).txAddr = s.txAddr := rfl
@[simp] theorem raiseSend_txLen (e : ErrorKind) (s : State) :
    (raise .send e s).txLen = s.txLen := rfl
@[simp] theorem raiseSend_txNData (e : ErrorKind) (s : State) :
    (raise .send e s).txNData = s.txNData := rfl
@[simp] theorem raiseSend_txData (e : ErrorKind) (s : State) :
    (raise .send e s).txData = s.txData := rfl
@[simp] theorem raiseSend_rxCmd (e : ErrorKind) (s : State) :
    (raise .send e s).rxCmd = s.rxCmd := rfl
@[simp] theorem raiseSend_rxAddr (e : ErrorKind) (s : State) :
    (raise .send e s).rxAddr = s.rxAddr := rfl
@[simp] theorem raiseSend_rxLen (e : ErrorKind) (s : State) :
    (raise .send e s).rxLen = s.rxLen := rfl
@[simp] theorem raiseSend_rxData (e : ErrorKind) (s : State) :
    (raise .send e s).rxData = s.rxData := rfl
@[simp] theorem raiseSend_crcAcc (e : ErrorKind) (s : State) :
    (raise .send e s).crcAcc = s.crcAcc := rfl
@[simp] theorem raiseSend_txState (e : ErrorKind) (s : State) :
    (raise .send e s).txState = .idle := rfl
@[simp] theorem raiseSend_txIdx (e : ErrorKind) (s : State) :
    (raise .send e s).txIdx = 0 := rfl
@[simp] theorem raiseSend_txFrameLen (e : ErrorKind) (s : State) :
    (raise .send e s).txFrameLen = s.txFrameLen := rfl
@[simp] theorem raiseSend_txCrc (e : ErrorKind) (s : State) :
    (raise .send e s).txCrc = none := rfl
@[simp] theorem raiseSend_rxState (e : ErrorKind) (s : State) :
    (raise .send e s).rxState = s.rxState := rfl
@[simp] theorem raiseSend_rxIdx (e : ErrorKind) (s : State) :
    (raise .send e s).rxIdx = s.rxIdx := rfl
@[simp] theorem raiseSend_rxCrc (e : ErrorKind) (s : State) :
    (raise .send e s).rxCrc = none := rfl
@[simp] theorem raiseSend_rxCkLo (e : ErrorKind) (s : State) :
    (raise .send e s).rxCkLo = s.rxCkLo := rfl
@[simp] theorem raiseSend_rxCkHi (e : ErrorKind) (s : State) :
    (raise .send e s).rxCkHi = s.rxCkHi := rfl
@[simp] theorem raiseSend_rxValid (e : ErrorKind) (s : State) :
    (raise .send e s).rxValid = s.rxValid := rfl
@[simp] theorem raiseSend_status (e : ErrorKind) (s : State) :
    (raise .send e s).status = .error e := rfl
@[simp] theorem raiseSend_expectAny (e : ErrorKind) (s : State) :
    (raise .send e s).expectAny = s.expectAny := rfl
@[simp] theorem raiseSend_expectCmd (e : ErrorKind) (s : State) :
    (raise .send e s).expectCmd = s.expectCmd := rfl
@[simp] theorem raiseSend_scanCnt (e : ErrorKind) (s : State) :
    (raise .send e s).scanCnt = s.scanCnt := rfl
@[simp] theorem raiseSend_sawSync1 (e : ErrorKind) (s : State) :
    (raise .send e s).sawSync1 = s.sawSync1 := rfl
@[simp] theorem raiseSend_linkOpen (e : ErrorKind) (s : State) :
    (raise .send e s).linkOpen = s.linkOpen := rfl
@[simp] theorem raiseSend_linkIn (e : ErrorKind) (s : State) :
    (raise .send e s).linkIn = s.linkIn := rfl
@[simp] theorem raiseSend_linkGets (e : ErrorKind) (s : State) :
    (raise .send e s).linkGets = s.linkGets := rfl
@[simp] theorem raiseSend_putAnswers (e : ErrorKind) (s : State) :
    (raise .send e s).putAnswers = s.putAnswers := rfl
@[simp] theorem raiseSend_linkPuts (e : ErrorKind) (s : State) :
    (raise .send e s).linkPuts = s.linkPuts := rfl
@[simp] theorem raiseSend_linkOut (e : ErrorKind) (s : State) :
    (raise .send e s).linkOut = s.linkOut := rfl
@[simp] theorem raiseSend_host (e : ErrorKind) (s : State) :
    (raise .send e s).host = s.host := rfl
@[simp] theorem raiseSend_result (e : ErrorKind) (s : State) :
    (raise .send e s).result = s.result := rfl

/-! ### raiseRecv -/

@[simp] theorem raiseRecv_cfg (e : ErrorKind) (s : State) :
    (raise .recv e s).cfg = s.cfg := rfl
@[simp] theorem raiseRecv_txCmd (e : ErrorKind) (s : State) :
    (raise .recv e s).txCmd = s.txCmd := rfl
@[simp] theorem raiseRecv_txAddr (e : ErrorKind) (s : State) :
    (raise .recv e s).txAddr = s.txAddr := rfl
@[simp] theorem raiseRecv_txLen (e : ErrorKind) (s : State) :
    (raise .recv e s).txLen = s.txLen := rfl
@[simp] theorem raiseRecv_txNData (e : ErrorKind) (s : State) :
    (raise .recv e s).txNData = s.txNData := rfl
@[simp] theorem raiseRecv_txData (e : ErrorKind) (s : State) :
    (raise .recv e s).txData = s.txData := rfl
@[simp] theorem raiseRecv_rxCmd (e : ErrorKind) (s : State) :
    (raise .recv e s).rxCmd = none := rfl
@[simp] theorem raiseRecv_rxAddr (e : ErrorKind) (s : State) :
    (raise .recv e s).rxAddr = none := rfl
@[simp] theorem raiseRecv_rxLen (e : ErrorKind) (s : State) :
    (raise .recv e s).rxLen = none := rfl
@[simp] theorem raiseRecv_rxData (e : ErrorKind) (s : State) :
    (raise .recv e s).rxData = [] := rfl
@[simp] theorem raiseRecv_crcAcc (e : ErrorKind) (s : State) :
    (raise .recv e s).crcAcc = s.crcAcc := rfl
@[simp] theorem raiseRecv_txState (e : ErrorKind) (s : State) :
    (raise .recv e s).txState = s.txState := rfl
@[simp] theorem raiseRecv_txIdx (e : ErrorKind) (s : State) :
    (raise .recv e s).txIdx = s.txIdx := rfl
@[simp] theorem raiseRecv_txFrameLen (e : ErrorKind) (s : State) :
    (raise .recv e s).txFrameLen = s.txFrameLen := rfl
@[simp] theorem raiseRecv_txCrc (e : ErrorKind) (s : State) :
    (raise .recv e s).txCrc = none := rfl
@[simp] theorem raiseRecv_rxState (e : ErrorKind) (s : State) :
    (raise .recv e s).rxState = .idle := rfl
@[simp] theorem raiseRecv_rxIdx (e : ErrorKind) (s : State) :
    (raise .recv e s).rxIdx = 0 := rfl
@[simp] theorem raiseRecv_rxCrc (e : ErrorKind) (s : State) :
    (raise .recv e s).rxCrc = none := rfl
@[simp] theorem raiseRecv_rxCkLo (e : ErrorKind) (s : State) :
    (raise .recv e s).rxCkLo = none := rfl
@[simp] theorem raiseRecv_rxCkHi (e : ErrorKind) (s : State) :
    (raise .recv e s).rxCkHi = none := rfl
@[simp] theorem raiseRecv_rxValid (e : ErrorKind) (s : State) :
    (raise .recv e s).rxValid = false := rfl
@[simp] theorem raiseRecv_status (e : ErrorKind) (s : State) :
    (raise .recv e s).status = .error e := rfl
@[simp] theorem raiseRecv_expectAny (e : ErrorKind) (s : State) :
    (raise .recv e s).expectAny = s.expectAny := rfl
@[simp] theorem raiseRecv_expectCmd (e : ErrorKind) (s : State) :
    (raise .recv e s).expectCmd = s.expectCmd := rfl
@[simp] theorem raiseRecv_scanCnt (e : ErrorKind) (s : State) :
    (raise .recv e s).scanCnt = s.scanCnt := rfl
@[simp] theorem raiseRecv_sawSync1 (e : ErrorKind) (s : State) :
    (raise .recv e s).sawSync1 = s.sawSync1 := rfl
@[simp] theorem raiseRecv_linkOpen (e : ErrorKind) (s : State) :
    (raise .recv e s).linkOpen = s.linkOpen := rfl
@[simp] theorem raiseRecv_linkIn (e : ErrorKind) (s : State) :
    (raise .recv e s).linkIn = s.linkIn := rfl
@[simp] theorem raiseRecv_linkGets (e : ErrorKind) (s : State) :
    (raise .recv e s).linkGets = s.linkGets := rfl
@[simp] theorem raiseRecv_putAnswers (e : ErrorKind) (s : State) :
    (raise .recv e s).putAnswers = s.putAnswers := rfl
@[simp] theorem raiseRecv_linkPuts (e : ErrorKind) (s : State) :
    (raise .recv e s).linkPuts = s.linkPuts := rfl
@[simp] theorem raiseRecv_linkOut (e : ErrorKind) (s : State) :
    (raise .recv e s).linkOut = s.linkOut := rfl
@[simp] theorem raiseRecv_host (e : ErrorKind) (s : State) :
    (raise .recv e s).host = s.host := rfl
@[simp] theorem raiseRecv_result (e : ErrorKind) (s : State) :
    (raise .recv e s).result = s.result := rfl

/-! ### loadTx -/

@[simp] theorem loadTx_cfg (cmd addr len : Byte) (data : List Byte) (s : State) :
    (loadTx cmd addr len data s).cfg = s.cfg := rfl
@[simp] theorem loadTx_txCmd (cmd addr len : Byte) (data : List Byte) (s : State) :
    (loadTx cmd addr len data s).txCmd = some cmd := rfl
@[simp] theorem loadTx_txAddr (cmd addr len : Byte) (data : List Byte) (s : State) :
    (loadTx cmd addr len data s).txAddr = some addr := rfl
@[simp] theorem loadTx_txLen (cmd addr len : Byte) (data : List Byte) (s : State) :
    (loadTx cmd addr len data s).txLen = some len := rfl
@[simp] theorem loadTx_txNData (cmd addr len : Byte) (data : List Byte) (s : State) :
    (loadTx cmd addr len data s).txNData = some (BitVec.ofNat 8 data.length) := rfl
@[simp] theorem loadTx_txData (cmd addr len : Byte) (data : List Byte) (s : State) :
    (loadTx cmd addr len data s).txData = s.txData.writeFrom 0 data := rfl
@[simp] theorem loadTx_rxCmd (cmd addr len : Byte) (data : List Byte) (s : State) :
    (loadTx cmd addr len data s).rxCmd = s.rxCmd := rfl
@[simp] theorem loadTx_rxAddr (cmd addr len : Byte) (data : List Byte) (s : State) :
    (loadTx cmd addr len data s).rxAddr = s.rxAddr := rfl
@[simp] theorem loadTx_rxLen (cmd addr len : Byte) (data : List Byte) (s : State) :
    (loadTx cmd addr len data s).rxLen = s.rxLen := rfl
@[simp] theorem loadTx_rxData (cmd addr len : Byte) (data : List Byte) (s : State) :
    (loadTx cmd addr len data s).rxData = s.rxData := rfl
@[simp] theorem loadTx_crcAcc (cmd addr len : Byte) (data : List Byte) (s : State) :
    (loadTx cmd addr len data s).crcAcc = s.crcAcc := rfl
@[simp] theorem loadTx_txState (cmd addr len : Byte) (data : List Byte) (s : State) :
    (loadTx cmd addr len data s).txState = s.txState := rfl
@[simp] theorem loadTx_txIdx (cmd addr len : Byte) (data : List Byte) (s : State) :
    (loadTx cmd addr len data s).txIdx = s.txIdx := rfl
@[simp] theorem loadTx_txFrameLen (cmd addr len : Byte) (data : List Byte) (s : State) :
    (loadTx cmd addr len data s).txFrameLen = s.txFrameLen := rfl
@[simp] theorem loadTx_txCrc (cmd addr len : Byte) (data : List Byte) (s : State) :
    (loadTx cmd addr len data s).txCrc = s.txCrc := rfl
@[simp] theorem loadTx_rxState (cmd addr len : Byte) (data : List Byte) (s : State) :
    (loadTx cmd addr len data s).rxState = s.rxState := rfl
@[simp] theorem loadTx_rxIdx (cmd addr len : Byte) (data : List Byte) (s : State) :
    (loadTx cmd addr len data s).rxIdx = s.rxIdx := rfl
@[simp] theorem loadTx_rxCrc (cmd addr len : Byte) (data : List Byte) (s : State) :
    (loadTx cmd addr len data s).rxCrc = s.rxCrc := rfl
@[simp] theorem loadTx_rxCkLo (cmd addr len : Byte) (data : List Byte) (s : State) :
    (loadTx cmd addr len data s).rxCkLo = s.rxCkLo := rfl
@[simp] theorem loadTx_rxCkHi (cmd addr len : Byte) (data : List Byte) (s : State) :
    (loadTx cmd addr len data s).rxCkHi = s.rxCkHi := rfl
@[simp] theorem loadTx_rxValid (cmd addr len : Byte) (data : List Byte) (s : State) :
    (loadTx cmd addr len data s).rxValid = s.rxValid := rfl
@[simp] theorem loadTx_status (cmd addr len : Byte) (data : List Byte) (s : State) :
    (loadTx cmd addr len data s).status = s.status := rfl
@[simp] theorem loadTx_expectAny (cmd addr len : Byte) (data : List Byte) (s : State) :
    (loadTx cmd addr len data s).expectAny = s.expectAny := rfl
@[simp] theorem loadTx_expectCmd (cmd addr len : Byte) (data : List Byte) (s : State) :
    (loadTx cmd addr len data s).expectCmd = s.expectCmd := rfl
@[simp] theorem loadTx_scanCnt (cmd addr len : Byte) (data : List Byte) (s : State) :
    (loadTx cmd addr len data s).scanCnt = s.scanCnt := rfl
@[simp] theorem loadTx_sawSync1 (cmd addr len : Byte) (data : List Byte) (s : State) :
    (loadTx cmd addr len data s).sawSync1 = s.sawSync1 := rfl
@[simp] theorem loadTx_linkOpen (cmd addr len : Byte) (data : List Byte) (s : State) :
    (loadTx cmd addr len data s).linkOpen = s.linkOpen := rfl
@[simp] theorem loadTx_linkIn (cmd addr len : Byte) (data : List Byte) (s : State) :
    (loadTx cmd addr len data s).linkIn = s.linkIn := rfl
@[simp] theorem loadTx_linkGets (cmd addr len : Byte) (data : List Byte) (s : State) :
    (loadTx cmd addr len data s).linkGets = s.linkGets := rfl
@[simp] theorem loadTx_putAnswers (cmd addr len : Byte) (data : List Byte) (s : State) :
    (loadTx cmd addr len data s).putAnswers = s.putAnswers := rfl
@[simp] theorem loadTx_linkPuts (cmd addr len : Byte) (data : List Byte) (s : State) :
    (loadTx cmd addr len data s).linkPuts = s.linkPuts := rfl
@[simp] theorem loadTx_linkOut (cmd addr len : Byte) (data : List Byte) (s : State) :
    (loadTx cmd addr len data s).linkOut = s.linkOut := rfl
@[simp] theorem loadTx_host (cmd addr len : Byte) (data : List Byte) (s : State) :
    (loadTx cmd addr len data s).host = s.host := rfl
@[simp] theorem loadTx_result (cmd addr len : Byte) (data : List Byte) (s : State) :
    (loadTx cmd addr len data s).result = s.result := rfl

/-! ### linkArrive -/

@[simp] theorem linkArrive_cfg (bytes : List Byte) (s : State) :
    (linkArrive bytes s).cfg = s.cfg := rfl
@[simp] theorem linkArrive_txCmd (bytes : List Byte) (s : State) :
    (linkArrive bytes s).txCmd = s.txCmd := rfl
@[simp] theorem linkArrive_txAddr (bytes : List Byte) (s : State) :
    (linkArrive bytes s).txAddr = s.txAddr := rfl
@[simp] theorem linkArrive_txLen (bytes : List Byte) (s : State) :
    (linkArrive bytes s).txLen = s.txLen := rfl
@[simp] theorem linkArrive_txNData (bytes : List Byte) (s : State) :
    (linkArrive bytes s).txNData = s.txNData := rfl
@[simp] theorem linkArrive_txData (bytes : List Byte) (s : State) :
    (linkArrive bytes s).txData = s.txData := rfl
@[simp] theorem linkArrive_rxCmd (bytes : List Byte) (s : State) :
    (linkArrive bytes s).rxCmd = s.rxCmd := rfl
@[simp] theorem linkArrive_rxAddr (bytes : List Byte) (s : State) :
    (linkArrive bytes s).rxAddr = s.rxAddr := rfl
@[simp] theorem linkArrive_rxLen (bytes : List Byte) (s : State) :
    (linkArrive bytes s).rxLen = s.rxLen := rfl
@[simp] theorem linkArrive_rxData (bytes : List Byte) (s : State) :
    (linkArrive bytes s).rxData = s.rxData := rfl
@[simp] theorem linkArrive_crcAcc (bytes : List Byte) (s : State) :
    (linkArrive bytes s).crcAcc = s.crcAcc := rfl
@[simp] theorem linkArrive_txState (bytes : List Byte) (s : State) :
    (linkArrive bytes s).txState = s.txState := rfl
@[simp] theorem linkArrive_txIdx (bytes : List Byte) (s : State) :
    (linkArrive bytes s).txIdx = s.txIdx := rfl
@[simp] theorem linkArrive_txFrameLen (bytes : List Byte) (s : State) :
    (linkArrive bytes s).txFrameLen = s.txFrameLen := rfl
@[simp] theorem linkArrive_txCrc (bytes : List Byte) (s : State) :
    (linkArrive bytes s).txCrc = s.txCrc := rfl
@[simp] theorem linkArrive_rxState (bytes : List Byte) (s : State) :
    (linkArrive bytes s).rxState = s.rxState := rfl
@[simp] theorem linkArrive_rxIdx (bytes : List Byte) (s : State) :
    (linkArrive bytes s).rxIdx = s.rxIdx := rfl
@[simp] theorem linkArrive_rxCrc (bytes : List Byte) (s : State) :
    (linkArrive bytes s).rxCrc = s.rxCrc := rfl
@[simp] theorem linkArrive_rxCkLo (bytes : List Byte) (s : State) :
    (linkArrive bytes s).rxCkLo = s.rxCkLo := rfl
@[simp] theorem linkArrive_rxCkHi (bytes : List Byte) (s : State) :
    (linkArrive bytes s).rxCkHi = s.rxCkHi := rfl
@[simp] theorem linkArrive_rxValid (bytes : List Byte) (s : State) :
    (linkArrive bytes s).rxValid = s.rxValid := rfl
@[simp] theorem linkArrive_status (bytes : List Byte) (s : State) :
    (linkArrive bytes s).status = s.status := rfl
@[simp] theorem linkArrive_expectAny (bytes : List Byte) (s : State) :
    (linkArrive bytes s).expectAny = s.expectAny := rfl
@[simp] theorem linkArrive_expectCmd (bytes : List Byte) (s : State) :
    (linkArrive bytes s).expectCmd = s.expectCmd := rfl
@[simp] theorem linkArrive_scanCnt (bytes : List Byte) (s : State) :
    (linkArrive bytes s).scanCnt = s.scanCnt := rfl
@[simp] theorem linkArrive_sawSync1 (bytes : List Byte) (s : State) :
    (linkArrive bytes s).sawSync1 = s.sawSync1 := rfl
@[simp] theorem linkArrive_linkOpen (bytes : List Byte) (s : State) :
    (linkArrive bytes s).linkOpen = s.linkOpen := rfl
@[simp] theorem linkArrive_linkIn (bytes : List Byte) (s : State) :
    (linkArrive bytes s).linkIn = s.linkIn ++ bytes.map .byte := rfl
@[simp] theorem linkArrive_linkGets (bytes : List Byte) (s : State) :
    (linkArrive bytes s).linkGets = s.linkGets := rfl
@[simp] theorem linkArrive_putAnswers (bytes : List Byte) (s : State) :
    (linkArrive bytes s).putAnswers = s.putAnswers := rfl
@[simp] theorem linkArrive_linkPuts (bytes : List Byte) (s : State) :
    (linkArrive bytes s).linkPuts = s.linkPuts := rfl
@[simp] theorem linkArrive_linkOut (bytes : List Byte) (s : State) :
    (linkArrive bytes s).linkOut = s.linkOut := rfl
@[simp] theorem linkArrive_host (bytes : List Byte) (s : State) :
    (linkArrive bytes s).host = s.host := rfl
@[simp] theorem linkArrive_result (bytes : List Byte) (s : State) :
    (linkArrive bytes s).result = s.result := rfl

end Sys2Proof.Machine
end

