-- ==== Sys2Proof/Laws/Ops.lean ====
section
/-! SUPPORT. What each shared operation, each meaning and a step can do, said once: later proofs cite
these and do not unfold the definitions. -/

namespace Sys2Proof.Machine

theorem State.busy_eq_false {s : State} :
    s.busy = false ↔ s.txState = .idle ∧ s.rxState = .idle := by
  simp [State.busy]

/-! ### Sequencing -/

@[simp] theorem andThen_next {α : Type} (s : State) (f : State → Host.Outcome α Fault Refusal) :
    andThen (.next s) f = f s := rfl

@[simp] theorem andThen_fault {α : Type} (e : Fault) (f : State → Host.Outcome α Fault Refusal) :
    andThen (.fault e) f = .fault e := rfl

@[simp] theorem andThen_refused {α : Type} (e : Refusal)
    (f : State → Host.Outcome α Fault Refusal) : andThen (.refused e) f = .refused e := rfl

/-! ### The link port -/

/-- The answer the next `LinkGet()` gives. -/
def nextGet (s : State) : GetAnswer := s.linkIn.head?.getD (Config.freeGet s.linkGets)

@[simp] theorem linkGet_answer (s : State) : (linkGet s).1 = nextGet s := by
  unfold linkGet nextGet
  cases s.linkIn <;> rfl

/-- A `LinkGet()` changes the inbound stream and its position, and nothing else. -/
@[simp] theorem linkGet_state (s : State) :
    (linkGet s).2 = { s with linkIn := s.linkIn.tail, linkGets := s.linkGets + 1 } := by
  unfold linkGet
  cases h : s.linkIn <;> simp

/-- The state after an accepted `LinkPut(b)`. -/
def putAccepted (b : Byte) (s : State) : State :=
  { s with
    putAnswers := s.putAnswers.tail, linkPuts := s.linkPuts + 1, linkOut := s.linkOut ++ [b] }

/-- The state after a rejected `LinkPut`. -/
def putRejected (s : State) : State :=
  { s with putAnswers := s.putAnswers.tail, linkPuts := s.linkPuts + 1 }

theorem linkPut_accepted {b : Byte} {s : State} (h : nextPut s = .accepted) :
    linkPut b s = (.accepted, putAccepted b s) := by
  simp only [linkPut, h, putAccepted]

theorem linkPut_rejected {b : Byte} {s : State} (h : nextPut s = .rejected) :
    linkPut b s = (.rejected, putRejected s) := by
  simp only [linkPut, h, putRejected]

/-! ### Admission -/

/-- The conditions under which an operation on the link is carried out (R10, R31, R251). -/
theorem linkReady_eq_ok {s : State} :
    linkReady s = .ok () ↔ s.cfg.legal = true ∧ s.linkOpen = true ∧ s.busy = false := by
  unfold linkReady
  cases s.cfg.legal <;> cases s.linkOpen <;> cases s.busy <;> simp

/-- The operand registers all hold a value, and which (R120). -/
theorem txOperands_eq_ok {s : State} {f : TxOperands} :
    txOperands s = .ok f ↔ s.txCmd = some f.cmd ∧ s.txAddr = some f.addr ∧ s.txLen = some f.len ∧
      s.txNData = some f.ndata ∧ s.txData.readRange f.ndata.toNat = some f.data := by
  unfold txOperands
  constructor
  · intro h
    split at h
    · split at h
      · rename_i hd
        cases h
        exact ⟨by assumption, by assumption, by assumption, by assumption, hd⟩
      · cases h
    all_goals cases h
  · rintro ⟨h1, h2, h3, h4, h5⟩
    simp [h1, h2, h3, h4, h5]

/-- The conditions under which a SEND is carried out (R120, R121). -/
theorem sendCheck_eq_ok {s : State} {f : TxOperands} :
    sendCheck s = .ok f ↔ s.cfg.legal = true ∧ s.linkOpen = true ∧ s.busy = false ∧
      txOperands s = .ok f ∧ wfCommand s.cfg f.cmd = true ∧
      wfShape s.cfg f.cmd f.len f.ndata = true := by
  unfold sendCheck
  constructor
  · intro h
    split at h
    · cases h
    · rename_i hl
      obtain ⟨h1, h2, h3⟩ := linkReady_eq_ok.1 hl
      split at h
      · cases h
      · rename_i g hg
        split at h
        · cases h
        · split at h
          · cases h
          · cases h
            exact ⟨h1, h2, h3, hg, by simp_all, by simp_all⟩
  · rintro ⟨h1, h2, h3, h4, h5, h6⟩
    rw [linkReady_eq_ok.2 ⟨h1, h2, h3⟩, h4]
    simp [h5, h6]

/-- The conditions under which a RECV is carried out (R141). -/
theorem recvCheck_eq_ok {s : State} :
    recvCheck s = .ok () ↔ s.cfg.legal = true ∧ s.linkOpen = true ∧ s.busy = false ∧
      s.ExpectSet := by
  unfold recvCheck
  constructor
  · intro h
    split at h
    · cases h
    · rename_i hl
      obtain ⟨h1, h2, h3⟩ := linkReady_eq_ok.1 hl
      refine ⟨h1, h2, h3, ?_⟩
      unfold State.ExpectSet
      cases ha : s.expectAny <;> cases he : s.expectCmd <;> simp_all
  · rintro ⟨h1, h2, h3, h4⟩
    rw [linkReady_eq_ok.2 ⟨h1, h2, h3⟩]
    unfold State.ExpectSet at h4
    cases ha : s.expectAny <;> cases he : s.expectCmd <;> simp_all

/-! ### What the meanings can do -/

theorem execSend_next {s t : State} :
    execSend s = .next t ↔ ∃ f, sendCheck s = .ok f ∧ t = startSend f.ndata.toNat s := by
  unfold execSend
  cases h : sendCheck s <;> simp [eq_comm]

theorem execRecv_next {s t : State} :
    execRecv s = .next t ↔ recvCheck s = .ok () ∧ t = startRecv s := by
  unfold execRecv
  cases h : recvCheck s with
  | error r => simp
  | ok u => cases u; simp [eq_comm]

theorem execReadReq_next {addr len : Byte} {s t : State} :
    execReadReq addr len s = .next t ↔
      s.busy = false ∧ execSend (loadTx s.cfg.cmdRead addr len [] s) = .next t := by
  unfold execReadReq
  cases s.busy <;> simp

theorem execWrite_next {addr len : Byte} {data : List Byte} {s t : State} :
    execWrite addr len data s = .next t ↔
      s.busy = false ∧ dataFits len data = true ∧
        execSend (loadTx s.cfg.cmdWrite addr len data s) = .next t := by
  unfold execWrite
  cases s.busy <;> cases dataFits len data <;> simp

theorem execCrcInit_next {s t : State} :
    execCrcInit s = .next t ↔ s.busy = false ∧ t = { s with crcAcc := some s.cfg.crcInit } := by
  unfold execCrcInit
  cases s.busy <;> simp [eq_comm]

theorem execCrcByte_next {b : Byte} {s t : State} :
    execCrcByte b s = .next t ↔ s.busy = false ∧ ∃ reg, s.crcAcc = some reg ∧
      t = { s with crcAcc := some (byteStep s.cfg.crcPoly reg b) } := by
  unfold execCrcByte
  cases s.busy <;> cases s.crcAcc <;> simp [eq_comm]

theorem execCrcOut_next {s t : State} :
    execCrcOut s = .next t ↔ s.busy = false ∧ ∃ reg, s.crcAcc = some reg ∧
      t = { s with result := some (rev16 reg) } := by
  unfold execCrcOut
  cases s.busy <;> cases s.crcAcc <;> simp [eq_comm]

theorem execChecksum_next {bytes : List Byte} {s t : State} :
    execChecksum bytes s = .next t ↔ s.busy = false ∧
      t = { s with crcAcc := some (crcReg s.cfg.crcPoly s.cfg.crcInit bytes),
                   result := some (crc16 s.cfg bytes) } := by
  unfold execChecksum
  cases s.busy <;> simp [eq_comm]

/-- A host read gives the value of a register that exists, is the host's to read and holds one. -/
theorem hostRead_next {r : Reg} {s t : State} :
    hostRead r s = .next t ↔ r.missing s.cfg.maxLen = false ∧ r.hostReadable = true ∧
      ∃ v, s.regValue r = some v ∧ t = { s with result := some v } := by
  unfold hostRead
  cases r.missing s.cfg.maxLen <;> cases r.hostReadable <;> cases s.regValue r <;> simp [eq_comm]

theorem setLink_next {b : Bool} {s t : State} :
    setLink b s = .next t ↔ s.busy = false ∧ t = { s with linkOpen := b } := by
  unfold setLink
  cases s.busy <;> simp [eq_comm]

/-! ### What a sequencer step can do -/

/-- A step of SEND completes, or offers one byte, which the link accepts or rejects (R124 to R127). -/
theorem txStep_next {s t : State} (h : txStep s = .next t) :
    (s.txFrameLen ≤ s.txIdx ∧ t = completeSend s) ∨
    (s.txIdx < s.txFrameLen ∧ ∃ n b, s.txNData = some n ∧ txByte s n.toNat s.txIdx = some b ∧
      ((nextPut s = .accepted ∧ t = txAccepted n.toNat s.txIdx b (putAccepted b s)) ∨
       (nextPut s = .rejected ∧ t = raise .send .transportWriteFailure (putRejected s)))) := by
  unfold txStep at h
  split at h
  · cases h
    exact .inl ⟨‹_›, rfl⟩
  · refine .inr ⟨by omega, ?_⟩
    split at h
    · cases h
    · rename_i n hn
      split at h
      · cases h
      · rename_i b hb
        refine ⟨n, b, hn, hb, ?_⟩
        cases hp : nextPut s with
        | accepted =>
          rw [linkPut_accepted hp] at h
          cases h
          exact .inl ⟨rfl, rfl⟩
        | rejected =>
          rw [linkPut_rejected hp] at h
          cases h
          exact .inr ⟨rfl, rfl⟩

/-- The state in which a sequencer sees the answer of its `LinkGet()`. -/
def afterGet (s : State) : State :=
  { s with linkIn := s.linkIn.tail, linkGets := s.linkGets + 1 }

/-- A step of RECV: the cap, an attempt of the search, a timeout after sync, or a byte of the header,
the data or the checksum (R144 to R158). -/
theorem rxStep_next {s t : State} (h : rxStep s = .next t) :
    (s.rxState = .idle ∧ t = s) ∨
    (s.rxState = .search ∧ s.cfg.syncCap ≤ s.scanCnt ∧ t = raise .recv .transportTimeout s) ∨
    (s.rxState = .search ∧ s.scanCnt < s.cfg.syncCap ∧ t = searchStep (nextGet s) (afterGet s)) ∨
    (s.rxState ≠ .idle ∧ s.rxState ≠ .search ∧ nextGet s = .timeout ∧
      t = raise .recv .transportTimeout (afterGet s)) ∨
    (∃ b, nextGet s = .byte b ∧
      ((s.rxState = .header ∧ t = headerStep b (afterGet s)) ∨
       (∃ len, s.rxState = .data ∧ s.rxLen = some len ∧
          t = dataStep len b (afterGet s)) ∨
       (s.rxState = .ck ∧ ckStep b (afterGet s) = .next t))) := by
  unfold rxStep at h
  split at h
  · cases h
    exact .inl ⟨‹_›, rfl⟩
  · split at h
    · cases h
      exact .inr (.inl ⟨‹_›, ‹_›, rfl⟩)
    · simp only [linkGet_answer, linkGet_state] at h
      cases h
      exact .inr (.inr (.inl ⟨‹_›, by omega, rfl⟩))
  · rename_i hs
    simp only [linkGet_answer, linkGet_state] at h
    cases ha : nextGet s with
    | timeout =>
      simp only [ha, onByte] at h
      cases h
      exact .inr (.inr (.inr (.inl ⟨by simp [hs], by simp [hs], rfl, rfl⟩)))
    | byte b =>
      simp only [ha, onByte] at h
      cases h
      exact .inr (.inr (.inr (.inr ⟨b, rfl, .inl ⟨hs, rfl⟩⟩)))
  · rename_i hs
    split at h
    · cases h
    · rename_i len hlen
      simp only [linkGet_answer, linkGet_state] at h
      cases ha : nextGet s with
      | timeout =>
        simp only [ha, onByte] at h
        cases h
        exact .inr (.inr (.inr (.inl ⟨by simp [hs], by simp [hs], rfl, rfl⟩)))
      | byte b =>
        simp only [ha, onByte] at h
        cases h
        exact .inr (.inr (.inr (.inr ⟨b, rfl, .inr (.inl ⟨len, hs, hlen, rfl⟩)⟩)))
  · rename_i hs
    simp only [linkGet_answer, linkGet_state] at h
    cases ha : nextGet s with
    | timeout =>
      simp only [ha, onByte] at h
      cases h
      exact .inr (.inr (.inr (.inl ⟨by simp [hs], by simp [hs], rfl, rfl⟩)))
    | byte b =>
      simp only [ha, onByte] at h
      exact .inr (.inr (.inr (.inr ⟨b, rfl, .inr (.inr ⟨hs, h⟩)⟩)))

/-! ### What a step can do -/

theorem seqStep_of_send {s : State} (h : s.txState = .send) : seqStep s = txStep s := by
  simp [seqStep, h]

theorem seqStep_of_idle {s : State} (h : s.txState = .idle) : seqStep s = rxStep s := by
  simp [seqStep, h]

/-- A step that goes on: nothing to do, the sequencer's move, or the next request of the host. -/
theorem step_next {s t : State} (h : step s = .next t) :
    s.cfg.legal = true ∧
    ((s.host = [] ∧ s.busy = false ∧ t = s) ∨
     (s.busy = true ∧ seqStep s = .next t) ∨
     (∃ r rest, s.host = r :: rest ∧ takesRequest s r = true ∧
        perform r.act { s with host := rest } = .next t)) := by
  unfold step at h
  split at h
  · cases h
  · refine ⟨by simp_all, ?_⟩
    split at h
    · rename_i hh
      split at h
      · exact .inr (.inl ⟨‹_›, h⟩)
      · cases h
        exact .inl ⟨hh, by simp_all, rfl⟩
    · rename_i r rest hh
      split at h
      · exact .inr (.inr ⟨r, rest, hh, ‹_›, h⟩)
      · rename_i ht
        refine .inr (.inl ⟨?_, h⟩)
        cases hb : s.busy <;> simp_all [takesRequest]

/-- Under ENV_DEVICE_RX a frame the device makes is the frame of R70. -/
theorem deviceFrame_eq {c : Config} {deviceCrc : List Byte → Code} (h : EnvDeviceRx c deviceCrc)
    (cmd addr len : Byte) (data : List Byte) :
    deviceFrame c deviceCrc cmd addr len data = frameBytes c cmd addr len data := by
  simp [deviceFrame, frameBytes, ckBytes, h _]

end Sys2Proof.Machine
end

