-- ==== Sys2Proof/Laws/Steps.lean ====
section
/-! SUPPORT. The moves of the two sequencers as equations, one for each case of the rules, and the bytes
SEND offers. -/

namespace Sys2Proof.Machine

/-! ### A step of RECV in each phase -/

theorem rxStep_cap {s : State} (h : s.rxState = .search) (hc : s.cfg.syncCap ≤ s.scanCnt) :
    rxStep s = .next (raise .recv .transportTimeout s) := by
  simp [rxStep, h, hc]

theorem rxStep_search {s : State} (h : s.rxState = .search) (hc : s.scanCnt < s.cfg.syncCap) :
    rxStep s = .next (searchStep (nextGet s) (afterGet s)) := by
  simp [rxStep, h, show ¬s.cfg.syncCap ≤ s.scanCnt by omega, afterGet]

theorem rxStep_header {s : State} (h : s.rxState = .header) :
    rxStep s = onByte (fun b u => .next (headerStep b u)) (nextGet s) (afterGet s) := by
  simp [rxStep, h, afterGet]

theorem rxStep_data {s : State} {len : Byte} (h : s.rxState = .data) (hl : s.rxLen = some len) :
    rxStep s = onByte (fun b u => .next (dataStep len b u)) (nextGet s) (afterGet s) := by
  simp [rxStep, h, hl, afterGet]

theorem rxStep_ck {s : State} (h : s.rxState = .ck) :
    rxStep s = onByte ckStep (nextGet s) (afterGet s) := by
  simp [rxStep, h, afterGet]

theorem ckStep_first {s : State} (b : Byte) (h : s.rxIdx = 0) :
    ckStep b s = .next { s with rxCkLo := some b, rxIdx := 1 } :=
  if_pos h

/-- The second checksum byte, with every register it needs holding a value (R153 to R157). -/
theorem ckStep_second {s : State} {crc : Code} {lo cmd : Byte} (b : Byte) (h : s.rxIdx ≠ 0)
    (hcrc : s.rxCrc = some crc) (hlo : s.rxCkLo = some lo) (hcmd : s.rxCmd = some cmd)
    (he : s.ExpectSet) :
    ckStep b s = .next (finishRecv crc lo b cmd (s.expectCmd.getD 0)
      { s with rxCkHi := some b, rxIdx := 2 }) := by
  unfold State.ExpectSet at he
  cases ha : s.expectAny <;> cases hx : s.expectCmd <;> simp_all [ckStep]

/-! ### The search -/

theorem searchStep_timeout (s : State) :
    searchStep .timeout s = { s with scanCnt := s.scanCnt + 1, sawSync1 := false } := rfl

theorem searchStep_match {s : State} (h : s.sawSync1 = true) :
    searchStep (.byte s.cfg.sync2) s = syncFound { s with scanCnt := s.scanCnt + 1 } :=
  if_pos ⟨h, rfl⟩

theorem searchStep_other {s : State} {b : Byte} (h : ¬(s.sawSync1 = true ∧ b = s.cfg.sync2)) :
    searchStep (.byte b) s =
      { s with scanCnt := s.scanCnt + 1, sawSync1 := b == s.cfg.sync1 } :=
  if_neg h

/-! ### The header, the data -/

theorem headerStep_cmd {s : State} (b : Byte) (h : s.rxIdx = 0) :
    headerStep b s = { s with
      rxCrc := s.rxCrc.map (byteStep s.cfg.crcPoly · b), rxCmd := some b, rxIdx := 1 } :=
  if_pos h

theorem headerStep_addr {s : State} (b : Byte) (h : s.rxIdx = 1) :
    headerStep b s = { s with
      rxCrc := s.rxCrc.map (byteStep s.cfg.crcPoly · b), rxAddr := some b, rxIdx := 2 } :=
  (if_neg (by omega)).trans (if_pos h)

theorem headerStep_len {s : State} (b : Byte) (h : s.rxIdx = 2) :
    headerStep b s = { s with
      rxCrc := s.rxCrc.map (byteStep s.cfg.crcPoly · b), rxLen := some b, rxIdx := 0
      rxState := if 0 < b.toNat then .data else .ck } :=
  (if_neg (by omega)).trans (if_neg (by omega))

theorem dataStep_last {s : State} {len : Byte} (b : Byte) (h : s.rxIdx + 1 = len.toNat) :
    dataStep len b s = { s with
      rxCrc := s.rxCrc.map (byteStep s.cfg.crcPoly · b), rxData := s.rxData.store s.cfg.maxLen s.rxIdx b
      rxIdx := 0, rxState := .ck } :=
  if_pos h

theorem dataStep_more {s : State} {len : Byte} (b : Byte) (h : s.rxIdx + 1 ≠ len.toNat) :
    dataStep len b s = { s with
      rxCrc := s.rxCrc.map (byteStep s.cfg.crcPoly · b), rxData := s.rxData.store s.cfg.maxLen s.rxIdx b
      rxIdx := s.rxIdx + 1 } :=
  if_neg h

/-! ### The end of RECV -/

theorem finishRecv_corrupt {crc : Code} {lo hi : Byte} (cmd e : Byte) (s : State)
    (h : checksumOk crc lo hi = false) :
    finishRecv crc lo hi cmd e s = raise .recv .frameCorruption s := by
  simp [finishRecv, h]

theorem finishRecv_mismatch {crc : Code} {lo hi cmd e : Byte} {s : State}
    (h : checksumOk crc lo hi = true) (hc : commandExpected s.expectAny e cmd = false) :
    finishRecv crc lo hi cmd e s = raise .recv .protocolMismatch s := by
  simp [finishRecv, h, hc]

theorem finishRecv_ok {crc : Code} {lo hi cmd e : Byte} {s : State}
    (h : checksumOk crc lo hi = true) (hc : commandExpected s.expectAny e cmd = true) :
    finishRecv crc lo hi cmd e s = completeRecv s := by
  simp [finishRecv, h, hc]

/-- The two bytes of a code pass its own test (R154). -/
theorem checksumOk_own (crc : Code) : checksumOk crc (lo8 (rev16 crc)) (hi8 (rev16 crc)) = true := by
  simp [checksumOk]

/-! ### An accepted byte of SEND -/

theorem txAccepted_more {s : State} (n : Nat) {k : Nat} (b : Byte) (h : k + 1 ≠ s.txFrameLen) :
    txAccepted n k b s = { s with
      txCrc := if k < 5 + n then s.txCrc.map (byteStep s.cfg.crcPoly · b) else s.txCrc
      txIdx := k + 1 } :=
  if_neg h

theorem txAccepted_last {s : State} (n : Nat) {k : Nat} (b : Byte) (h : k + 1 = s.txFrameLen) :
    txAccepted n k b s = completeSend { s with
      txCrc := if k < 5 + n then s.txCrc.map (byteStep s.cfg.crcPoly · b) else s.txCrc
      txIdx := k + 1 } :=
  if_pos h

/-! ### The bytes of a frame -/

theorem header_length (c : Config) (cmd addr len : Byte) : (header c cmd addr len).length = 5 := rfl

theorem covered_length (c : Config) (cmd addr len : Byte) (data : List Byte) :
    (covered c cmd addr len data).length = 5 + data.length := by
  simp [covered, header_length]

theorem covered_snoc (c : Config) (cmd addr len : Byte) (data : List Byte) (b : Byte) :
    covered c cmd addr len (data ++ [b]) = covered c cmd addr len data ++ [b] := by
  simp [covered]

theorem frameBytes_length (c : Config) (cmd addr len : Byte) (data : List Byte) :
    (frameBytes c cmd addr len data).length = 7 + data.length := by
  simp [frameBytes, covered_length, ckBytes]; omega

/-- What SEND offers below its checksum is the covered bytes (R122, R124). -/
theorem txByte_covered {s : State} {f : TxOperands} (hf : txOperands s = .ok f) {k : Nat}
    (hk : k < 5 + f.ndata.toNat) :
    txByte s f.ndata.toNat k = (covered s.cfg f.cmd f.addr f.len f.data)[k]? := by
  obtain ⟨h1, h2, h3, -, h5⟩ := txOperands_eq_ok.1 hf
  obtain ⟨-, hr⟩ := Buffer.readRange_eq_some.1 h5
  match k with
  | 0 => rfl
  | 1 => rfl
  | 2 => exact h1
  | 3 => exact h2
  | 4 => exact h3
  | k + 5 =>
    have h : txByte s f.ndata.toNat (k + 5) = s.txData.read k := by simp [txByte, hk]
    rw [h, hr k (by omega)]
    rfl

theorem txByte_ckLo {s : State} {n : Nat} {crc : Code} (h : s.txCrc = some crc) :
    txByte s n (5 + n) = some (lo8 (rev16 crc)) := by
  simp [txByte, h, show 5 + n ≠ 1 by omega, show 5 + n ≠ 2 by omega,
    show 5 + n ≠ 3 by omega, show ¬5 + n = 4 by omega]

theorem txByte_ckHi {s : State} {n : Nat} {crc : Code} (h : s.txCrc = some crc) :
    txByte s n (6 + n) = some (hi8 (rev16 crc)) := by
  simp [txByte, h, show 6 + n ≠ 1 by omega, show 6 + n ≠ 2 by omega,
    show 6 + n ≠ 3 by omega, show ¬6 + n = 4 by omega]

end Sys2Proof.Machine
end

