-- ==== Sys2Proof/Laws/PerInstr.lean ====
section
/-! SUPPORT. A family of statements made once for each instruction: the words of an instruction that
has words are a frame, at least seven bytes that begin with the sync pair; a host operation has no
words (R70, R73, R88). -/

namespace Sys2Proof.Laws.EncodeShape

open Sys2Proof Sys2Proof.Machine

def Statement (i : Instr) : Prop :=
  ∀ (c : Config) (w : List Byte), encode c i = some w →
    7 ≤ w.length ∧ w.take 2 = [c.sync1, c.sync2]

theorem of_frame {c : Config} {cmd addr len : Byte} {data w : List Byte}
    (h : some (frameBytes c cmd addr len data) = some w) :
    7 ≤ w.length ∧ w.take 2 = [c.sync1, c.sync2] := by
  obtain rfl := Option.some.inj h
  exact ⟨by rw [frameBytes_length]; omega, rfl⟩

theorem readReq (addr len : Byte) : Statement (.readReq addr len) := fun _ _ h => of_frame h

theorem readAck (addr len : Byte) (data : List Byte) : Statement (.readAck addr len data) :=
  fun _ _ h => of_frame h

theorem write (addr len : Byte) (data : List Byte) : Statement (.write addr len data) :=
  fun _ _ h => of_frame h

theorem angleTlm (addr len : Byte) (data : List Byte) : Statement (.angleTlm addr len data) :=
  fun _ _ h => of_frame h

theorem crcInit : Statement .crcInit := fun _ _ h => by cases h

theorem crcByte (b : Byte) : Statement (.crcByte b) := fun _ _ h => by cases h

theorem crcOut : Statement .crcOut := fun _ _ h => by cases h

theorem checksum (s : List Byte) : Statement (.checksum s) := fun _ _ h => by cases h

theorem send : Statement .send := fun _ _ h => by cases h

theorem recv : Statement .recv := fun _ _ h => by cases h

end Sys2Proof.Laws.EncodeShape
end

