-- ==== Sys2Proof/Laws/Runs.lean ====
section
/-! SUPPORT. Runs of several steps, and the step of a busy block whose host waits. -/

namespace Sys2Proof.Machine

theorem Runs.one {s t : State} (h : step s = .next t) : Runs 1 s t := ⟨t, h, rfl⟩

theorem Runs.trans {j k : Nat} {s u t : State} (h1 : Runs j s u) (h2 : Runs k u t) :
    Runs (j + k) s t := by
  induction j generalizing s with
  | zero =>
    cases h1
    rwa [Nat.zero_add]
  | succ j ih =>
    obtain ⟨v, hv, h1⟩ := h1
    rw [show j + 1 + k = (j + k) + 1 by omega]
    exact ⟨v, hv, ih h1⟩

/-- While an operation is in flight and the host waits, a step is the sequencer's move (R11, R64). -/
theorem step_of_busy {s : State} (hl : s.cfg.legal = true) (hb : s.busy = true) (hw : HostWaits s) :
    step s = seqStep s := by
  unfold step
  rw [if_neg (by simp [hl])]
  cases hh : s.host with
  | nil => simp [hb]
  | cons r rest => simp [takesRequest, hb, hw r (by simp [hh])]

end Sys2Proof.Machine
end

