-- ==== Sys2Proof/Tests/Slice0.lean ====
section
/-! SUPPORT. The model's own tests, each about one step, and for every statement with hypotheses a
concrete state that meets them. The expected values are those of 95_test_vectors.md (V1 to V21, P1,
P3) and of the rules, by hand. -/

namespace Sys2Proof.Tests

open Sys2Proof Sys2Proof.Machine

/-! ### Small states -/

/-- The reset state with these answers on the link. -/
def linked (inbound : List GetAnswer) (puts : List PutAnswer) : State :=
  { State.reset with linkIn := inbound, putAnswers := puts }

/-- The operands of `SEND 03, 60, 07, []` (P1). -/
def req : TxOperands := ⟨0x03, 0x60, 0x07, 0, []⟩

/-- A SEND of that frame in flight, at byte `k`, with these answers to come. -/
def sending (k : Nat) (puts : List PutAnswer) : State :=
  { loadTx 0x03 0x60 0x07 [] (linked [] puts) with
    txState := .send, txFrameLen := 7, txIdx := k
    txCrc := some (crcReg 0x8005 0xFFFF ([0xAA, 0x77, 0x03, 0x60, 0x07].take k)) }

/-- The state in which that SEND is admitted. -/
def loaded (puts : List PutAnswer) : State := loadTx 0x03 0x60 0x07 [] (linked [] puts)

/-- A RECV ANY in flight in its search, with a count and a window. -/
def searching (n : Nat) (saw : Bool) (inbound : List GetAnswer) : State :=
  { linked inbound [] with rxState := .search, scanCnt := n, sawSync1 := saw }

/-- The frame `AA 77 03 00 01 5A 6D F5` of V8, received up to its header byte `k`. -/
def inHeader (k : Nat) (inbound : List GetAnswer) : State :=
  { linked inbound [] with
    rxState := .header, rxIdx := k, scanCnt := 2, sawSync1 := true
    rxCmd := if 0 < k then some 0x03 else none
    rxAddr := if 1 < k then some 0x00 else none
    rxCrc := some (crcReg 0x8005 0xFFFF ([0xAA, 0x77, 0x03, 0x00].take (2 + k))) }

/-- The same frame, before its one data byte. -/
def inData (inbound : List GetAnswer) : State :=
  { linked inbound [] with
    rxState := .data, rxIdx := 0, scanCnt := 2, sawSync1 := true
    rxCmd := some 0x03, rxAddr := some 0x00, rxLen := some 0x01, rxCrc := some 0x6836 }

/-- The same frame, before its checksum byte `k`. -/
def inCk (k : Nat) (inbound : List GetAnswer) : State :=
  { linked inbound [] with
    rxState := .ck, rxIdx := k, scanCnt := 2, sawSync1 := true
    rxCmd := some 0x03, rxAddr := some 0x00, rxLen := some 0x01, rxData := [(0, 0x5A)]
    rxCrc := some 0xB6AF, rxCkLo := if k = 0 then none else some 0x6D }

/-- The same frame delivered. -/
def delivered : State :=
  { linked [] [] with
    rxCmd := some 0x03, rxAddr := some 0x00, rxLen := some 0x01, rxData := [(0, 0x5A)]
    rxCrc := some 0xB6AF, rxCkLo := some 0x6D, rxCkHi := some 0xF5, rxValid := true }

/-- The reset state of a block with MAX_LEN 4. -/
def shortBuffers : State := { State.reset with cfg := { maxLen := 4 } }

/-- The state with a request at the front of the host's queue. -/
def asked (waits : Bool) (a : HostAction) (s : State) : State := { s with host := [⟨waits, a⟩] }

/-- The next state, where there is one. -/
def nextOf (o : Out) : Option State := match o with
  | .next s => some s
  | .fault _ => none
  | .refused _ => none

theorem linked_linkIn (i : List GetAnswer) (p : List PutAnswer) : (linked i p).linkIn = i := rfl

theorem linked_putAnswers (i : List GetAnswer) (p : List PutAnswer) : (linked i p).putAnswers = p := rfl

theorem loaded_putAnswers (p : List PutAnswer) : (loaded p).putAnswers = p := rfl

/-! ### Well-formedness: one ill-formed term for each check -/

theorem test_wf_readAck_short : (Instr.readAck 0x00 0x02 [0x5A]).wellFormed = false := by decide
theorem test_wf_write_long : (Instr.write 0x20 0x00 [0x01]).wellFormed = false := by decide
theorem test_wf_angleTlm_empty : (Instr.angleTlm 0x60 0x07 []).wellFormed = false := by decide
theorem test_wf_readReq_any_length : (Instr.readReq 0x00 0xFF).wellFormed = true := by decide
theorem test_wf_write_fits : (Instr.write 0x20 0x01 [0x00]).wellFormed = true := by decide

/-! ### Decoding: words written out from the table's rows (V9) -/

theorem test_decode_readReq :
    decode .default .hostToDevice [0xAA, 0x77, 0x03, 0x60, 0x07, 0xBE, 0x6E]
      = .ok (.readReq 0x60 0x07, [0xBE, 0x6E]) := by decide

theorem test_decode_readAck :
    decode .default .deviceToHost [0xAA, 0x77, 0x03, 0x00, 0x01, 0x5A, 0x6D, 0xF5]
      = .ok (.readAck 0x00 0x01 [0x5A], [0x6D, 0xF5]) := by decide

theorem test_decode_write :
    decode .default .hostToDevice [0xAA, 0x77, 0x04, 0x20, 0x01, 0x01, 0x2C, 0xB0]
      = .ok (.write 0x20 0x01 [0x01], [0x2C, 0xB0]) := by decide

theorem test_decode_angleTlm :
    decode .default .deviceToHost
        [0xAA, 0x77, 0x05, 0x60, 0x07, 0x5A, 0x5A, 0x41, 0x5A, 0x5A, 0x5A, 0x4B, 0x34, 0x36]
      = .ok (.angleTlm 0x60 0x07 [0x5A, 0x5A, 0x41, 0x5A, 0x5A, 0x5A, 0x4B], [0x34, 0x36]) := by
  decide

theorem test_decode_table_write : decodeTableWord 40 0xAA77042000 = some (.write 0x20 0 []) := by
  decide

/-- A reserved command byte (V20). -/
theorem test_decode_reserved :
    decode .default .deviceToHost [0xAA, 0x77, 0x07, 0x01, 0x01, 0x09, 0x7D, 0x38]
      = .error (.reservedCommand 0x07) := by decide

/-- A flipped address bit (V12). -/
theorem test_decodeFrame_bad_checksum :
    decodeFrame .default .deviceToHost [0xAA, 0x77, 0x03, 0x01, 0x01, 0x5A, 0x6D, 0xF5]
      = .error .badChecksum := by decide +kernel

/-- Each host operation has no word (R88). -/
theorem test_encode_host_operations :
    [Instr.crcInit, .crcByte 0x31, .crcOut, .checksum [0x31], .send, .recv].map
      (encode .default) = [none, none, none, none, none, none] := by decide

/-! ### READ_REQ, WRITE, READ_ACK, ANGLE_TLM -/

/-- V9: the bytes of the request. -/
theorem test_readReq_bytes :
    encode .default (.readReq 0x00 0x01) = some [0xAA, 0x77, 0x03, 0x00, 0x01, 0x16, 0x6C] := by
  decide +kernel

theorem test_readReq_operands :
    (nextOf (exec (.readReq 0x60 0x07) State.reset)).map
      (fun t => (t.txNData, t.txFrameLen, t.txState)) = some (some 0, 7, .send) := by decide +kernel

/-- V9: the offsets frame. -/
theorem test_write_bytes :
    encode .default (.write 0x12 0x07 [0x70, 0x80, 0x8A, 0x80, 0x80, 0x80, 0x90]) =
      some [0xAA, 0x77, 0x04, 0x12, 0x07, 0x70, 0x80, 0x8A, 0x80, 0x80, 0x80, 0x90, 0x25, 0xA1] := by
  decide +kernel

theorem test_write_keeps_later_elements :
    (nextOf (exec (.write 0x20 0x01 [0x00]) { State.reset with txData := [(0, 0x11), (1, 0x22)] })).map
      (fun t => (t.txData, t.txLen, t.txFrameLen)) =
      some ([(0, 0x00), (1, 0x22)], some 1, 8) := by decide +kernel

/-- V8: the acknowledgment as it stands on the link. -/
theorem test_readAck_arrives :
    (nextOf (exec (.readAck 0x00 0x01 [0x5A]) (linked [.timeout] []))).map (·.linkIn) =
      some (.timeout :: [0xAA, 0x77, 0x03, 0x00, 0x01, 0x5A, 0x6D, 0xF5].map .byte) := by
  decide +kernel

/-- V17: the telemetry frame as it stands on the link. -/
theorem test_angleTlm_arrives :
    (nextOf (exec (.angleTlm 0x60 0x07 [0x5A, 0x5A, 0x41, 0x5A, 0x5A, 0x5A, 0x4B])
      State.reset)).map (·.linkIn) =
      some ([0xAA, 0x77, 0x05, 0x60, 0x07, 0x5A, 0x5A, 0x41, 0x5A, 0x5A, 0x5A, 0x4B, 0x34, 0x36].map
        .byte) := by decide +kernel

/-! ### The Checksum Engine (V1, V2, V3) -/

theorem test_rev16 : [0x1234, 0xECD2, 0xB70E].map rev16 = [0x2C48, 0x4B37, 0x70ED] := by decide

/-- V2, row 31: the fold and the eight steps. -/
theorem test_byteStep_steps :
    (List.range 9).map (fun n => divSteps 0x8005 n (crcFold 0xFFFF 0x31)) =
      [0x73FF, 0xE7FE, 0x4FF9, 0x9FF2, 0xBFE1, 0xFFC7, 0x7F8B, 0xFF16, 0x7E29] := by decide +kernel

theorem test_crcInit : (nextOf (exec .crcInit State.reset)).map (·.crcAcc) = some (some 0xFFFF) := by
  decide +kernel

theorem test_crcByte :
    (nextOf (exec (.crcByte 0x32) { State.reset with crcAcc := some 0x7E29 })).map (·.crcAcc) =
      some (some 0xA9AF) := by decide +kernel

theorem test_crcOut :
    (nextOf (exec .crcOut { State.reset with crcAcc := some 0x7E29 })).map
      (fun t => (t.result, t.crcAcc)) = some (some 0x947E, some 0x7E29) := by decide +kernel

theorem test_checksum :
    (nextOf (exec (.checksum [0x31, 0x32, 0x33, 0x34, 0x35, 0x36, 0x37, 0x38, 0x39])
      State.reset)).map (fun t => (t.result, t.crcAcc)) =
      some (some 0x4B37, some 0xECD2) := by decide +kernel

/-! ### SEND (P1, V21) -/

/-- The last checksum byte goes out and the operation completes. -/
theorem test_send_last_byte :
    (nextOf (step (sending 6 [.accepted]))).map
      (fun t => (t.linkOut, t.status, t.txState, t.txIdx, t.txLen)) =
      some ([0x6E], .ok, .idle, 0, some 7) := by decide +kernel

theorem test_send_rejected :
    (nextOf (step { sending 5 [.rejected] with linkOut := [0xAA, 0x77, 0x03, 0x60, 0x07] })).map
      (fun t => (t.linkOut, t.status, t.txState)) =
      some ([0xAA, 0x77, 0x03, 0x60, 0x07], .error .transportWriteFailure, .idle) := by
  decide +kernel

/-! ### RECV (V8, V15) -/

/-- The second checksum byte of V8 with `RECV 05`: consumed whole, no result. -/
theorem test_recv_mismatch :
    (nextOf (step { inCk 1 [.byte 0xF5] with expectAny := false, expectCmd := some 0x05 })).map
      (fun t => (t.status, t.rxValid, t.rxCmd, t.linkIn)) =
      some (.error .protocolMismatch, false, none, []) := by decide +kernel

/-- V15, p = 49: after 50 attempts the cap ends RECV without a further attempt. -/
theorem test_recv_cap :
    (nextOf (step (searching 50 true [.byte 0x77]))).map
      (fun t => (t.status, t.scanCnt, t.linkIn, t.rxState)) =
      some (.error .transportTimeout, 50, [.byte 0x77], .idle) := by decide +kernel

/-! ### Witnesses: the invariant in every phase -/

theorem inv_reset : Machine.Inv State.reset :=
  ⟨by decide, rfl, ⟨rfl, rfl, rfl, rfl, rfl, rfl, rfl⟩, by decide, rfl, rfl⟩

theorem inv_sending (k : Nat) (hk : k < 7) (puts : List PutAnswer) :
    Machine.Inv (sending k puts) :=
  ⟨fun _ => rfl, ⟨req, rfl, rfl, rfl, rfl, hk, rfl⟩, ⟨rfl, rfl, rfl, rfl, rfl, rfl, rfl⟩,
    Nat.zero_le _, rfl, rfl⟩

theorem inv_searching (n : Nat) (hn : n ≤ 50) (saw : Bool) (inbound : List GetAnswer) :
    Machine.Inv (searching n saw inbound) :=
  ⟨fun _ => by contradiction, rfl, ⟨rfl, rfl, .inl rfl, rfl, rfl, rfl, rfl, rfl, rfl⟩, hn, rfl, rfl⟩

theorem inv_inHeader (inbound : List GetAnswer) : Machine.Inv (inHeader 0 inbound) :=
  ⟨fun _ => by contradiction, rfl,
    ⟨rfl, .inl rfl, rfl, rfl, rfl, rfl, .inl ⟨rfl, rfl, rfl, rfl⟩⟩,
    show (2 : Nat) ≤ 50 by decide, rfl, rfl⟩

theorem inv_inData (inbound : List GetAnswer) : Machine.Inv (inData inbound) :=
  ⟨fun _ => by contradiction, rfl,
    ⟨rfl, .inl rfl, rfl, rfl, 0x03, 0x00, 0x01, [], rfl, show (0 : Nat) < 1 by decide,
      ⟨rfl, rfl, rfl, Buffer.Holds.nil _⟩,
      show some (0x6836 : Code) = some (crcReg 0x8005 0xFFFF [0xAA, 0x77, 0x03, 0x00, 0x01]) by
        decide +kernel⟩,
    show (2 : Nat) ≤ 50 by decide, rfl, rfl⟩

theorem holds_5A : Buffer.Holds 255 [(0, 0x5A)] [0x5A] :=
  Buffer.holds_writeFrom_nil (l := [0x5A]) (by decide)

theorem inv_inCk (inbound : List GetAnswer) : Machine.Inv (inCk 1 inbound) :=
  ⟨fun _ => by contradiction, rfl,
    ⟨rfl, .inl rfl, rfl, .inr ⟨rfl, rfl⟩, 0x03, 0x00, 0x01, [0x5A], rfl, ⟨rfl, rfl, rfl, holds_5A⟩,
      show some (0xB6AF : Code) = some (crcReg 0x8005 0xFFFF [0xAA, 0x77, 0x03, 0x00, 0x01, 0x5A]) by
        decide +kernel⟩,
    show (2 : Nat) ≤ 50 by decide, rfl, rfl⟩

theorem admitted (puts : List PutAnswer) : SendAdmitted (loaded puts) req :=
  ⟨rfl, rfl, rfl, rfl, rfl, rfl, rfl, rfl, fun k hk => absurd hk (Nat.not_lt_zero k), .inl rfl,
    show (7 : Nat) ≤ 255 by decide, .inr ⟨rfl, rfl⟩⟩

theorem recvAdmitted (inbound : List GetAnswer) : RecvAdmitted (linked inbound []) :=
  ⟨rfl, rfl, rfl, .inl rfl⟩

theorem waits_of_empty {s : State} (h : s.host = []) : HostWaits s := by
  intro r hr
  simp [h] at hr

theorem no_sync_of_short {c : Config} {l : List GetAnswer} (h : l.length ≤ 1) : ¬HasSync c l := by
  rintro ⟨i, -, h2⟩
  rw [List.getElem?_eq_none (by omega)] at h2
  cases h2

/-! ### Witnesses: each statement's hypotheses met together -/

theorem witness_StepRunsTheInstruction_op :
    let s := asked true (.op .crcInit) State.reset
    s.cfg.legal = true ∧ (s.busy = false ∨ true = false) ∧ s.host = ⟨true, .op .crcInit⟩ :: [] :=
  ⟨rfl, .inl rfl, rfl⟩

theorem witness_StepRunsTheInstruction_word :
    let bytes : List Byte := [0xAA, 0x77, 0x05, 0x60, 0x00, 0x00, 0x00]
    let s := asked false (.word .deviceToHost bytes) (searching 0 false [])
    s.cfg.legal = true ∧ (s.busy = false ∨ false = false) ∧
      s.host = ⟨false, .word .deviceToHost bytes⟩ :: [] ∧
      decode s.cfg .deviceToHost bytes = .ok (.angleTlm 0x60 0x00 [], [0x00, 0x00]) :=
  ⟨rfl, .inr rfl, rfl, by decide⟩

theorem witness_StepRunsTheInstruction_undecodable :
    let bytes : List Byte := [0xAA, 0x77, 0x06, 0x00, 0x00]
    let s := asked true (.word .hostToDevice bytes) State.reset
    s.cfg.legal = true ∧ (s.busy = false ∨ true = false) ∧
      s.host = ⟨true, .word .hostToDevice bytes⟩ :: [] ∧
      decode s.cfg .hostToDevice bytes = .error (.reservedCommand 0x06) :=
  ⟨rfl, .inl rfl, rfl, by decide⟩

/-- The register accesses and the life of the link, asked of an idle block and of a busy one. -/
theorem witness_StepRunsTheInstruction_access (a : HostAction)
    (_ : a = .write (.txCmd 0x03) ∨ a = .read .status ∨ a = .openLink ∨ a = .closeLink) :
    (asked true a State.reset).cfg.legal = true ∧ (asked true a State.reset).busy = false ∧
      (asked true a State.reset).host = ⟨true, a⟩ :: [] ∧
      (asked false a (searching 0 false [])).busy = true ∧
      (asked false a (searching 0 false [])).host = ⟨false, a⟩ :: [] :=
  ⟨rfl, rfl, rfl, rfl, rfl⟩

/-- A step writes the operand register the host asks for, and reads the flag it asks for. -/
theorem test_step_access :
    (nextOf (step (asked true (.write (.txCmd 0x03)) State.reset))).map (·.txCmd) = some (some 0x03) ∧
      (nextOf (step (asked true (.read .busy) State.reset))).map (·.result) = some (some 0) := by
  decide

theorem witness_StepMovesTheSequencer :
    ((sending 0 []).cfg.legal = true ∧ (sending 0 []).busy = true ∧ HostWaits (sending 0 []) ∧
      (sending 0 []).txState = .send) ∧
    ((searching 0 false []).cfg.legal = true ∧ (searching 0 false []).busy = true ∧
      HostWaits (searching 0 false []) ∧ (searching 0 false []).txState = .idle) ∧
    (State.reset.cfg.legal = true ∧ State.reset.busy = false ∧ State.reset.host = []) ∧
    ({ State.reset with cfg := { Config.default with sync2 := 0xAA } } : State).cfg.legal = false :=
  ⟨⟨rfl, rfl, waits_of_empty rfl, rfl⟩, ⟨rfl, rfl, waits_of_empty rfl, rfl⟩, ⟨rfl, rfl, rfl⟩, by decide⟩

/-- For the statements over any step: StepKeepsTheParameters, OnlyRecvConsumesInbound, StepKeepsInv. -/
theorem witness_step_of_an_idle_deserializer :
    ∃ t, step (sending 0 [.accepted]) = .next t ∧ (sending 0 [.accepted]).rxState = .idle ∧
      Machine.Inv (sending 0 [.accepted]) :=
  ⟨_, rfl, rfl, inv_sending 0 (by decide) _⟩

theorem witness_OnlySendWritesTheLink :
    ∃ t, step (sending 0 [.accepted]) = .next t ∧ t.linkOut ≠ (sending 0 [.accepted]).linkOut :=
  ⟨_, rfl, by decide +kernel⟩

theorem witness_StatusChangesOnlyAtCompletion :
    ∃ t, Machine.Inv (sending 6 [.rejected]) ∧ step (sending 6 [.rejected]) = .next t ∧
      t.status ≠ (sending 6 [.rejected]).status ∧
      ∀ r, (sending 6 [.rejected]).host.head? = some r → r.act ≠ .reset :=
  ⟨_, inv_sending 6 (by decide) _, rfl, by decide +kernel, fun _ h => by cases h⟩

theorem witness_ResultIsAWholeCheckedFrame :
    ∃ t, Machine.Inv (inCk 1 [.byte 0xF5]) ∧ step (inCk 1 [.byte 0xF5]) = .next t ∧
      (inCk 1 [.byte 0xF5]).rxValid = false ∧ t.rxValid = true :=
  ⟨_, inv_inCk _, rfl, rfl, by decide +kernel⟩

/-- Each clause of IndicesStayInRange at an end of its range; with BusyBlockAlwaysMoves. -/
theorem witness_IndicesStayInRange :
    (Machine.Inv (sending 6 []) ∧ (sending 6 []).txState = .send ∧ (sending 6 []).busy = true) ∧
    (Machine.Inv State.reset ∧ State.reset.txState = .idle) ∧
    (Machine.Inv (inHeader 0 []) ∧ (inHeader 0 []).rxState = .header) ∧
    (Machine.Inv (inCk 1 []) ∧ (inCk 1 []).rxState = .ck) ∧
    (Machine.Inv (inData []) ∧ (inData []).rxState = .data ∧ (inData []).busy = true) :=
  ⟨⟨inv_sending 6 (by decide) _, rfl, rfl⟩, ⟨inv_reset, rfl⟩, ⟨inv_inHeader _, rfl⟩,
    ⟨inv_inCk _, rfl⟩, ⟨inv_inData _, rfl, rfl⟩⟩

theorem witness_EveryRecvEnds :
    ∃ t, RecvAdmitted State.reset ∧ Machine.Inv State.reset ∧ HostWaits State.reset ∧
      exec .recv State.reset = .next t :=
  ⟨_, recvAdmitted [], inv_reset, waits_of_empty rfl, rfl⟩

/-- With SendStarts. -/
theorem witness_EverySendEnds :
    ∃ t, SendAdmitted (loaded []) req ∧ HostWaits (loaded []) ∧ exec .send (loaded []) = .next t :=
  ⟨_, admitted [], waits_of_empty rfl, rfl⟩

/-- Asked for during a RECV, and by a host that waits. -/
theorem witness_NothingInTheBlockSurvivesReset :
    (let s := asked false .reset (inData []);
      s.cfg.legal = true ∧ (s.busy = false ∨ false = false) ∧ s.host = ⟨false, .reset⟩ :: []) ∧
    (let s := asked true .reset delivered;
      s.cfg.legal = true ∧ (s.busy = false ∨ true = false) ∧ s.host = ⟨true, .reset⟩ :: []) :=
  ⟨⟨rfl, .inr rfl, rfl⟩, rfl, .inl rfl, rfl⟩

theorem witness_DecodeOfEncode_readReq :
    let i := Instr.readReq 0xFF 0xFF
    Config.default.legal = true ∧ i.wellFormed = true ∧ (encode .default i).isSome = true ∧
      ((∃ a l, i = .readReq a l) → Direction.hostToDevice = .hostToDevice) ∧
      ((∃ a l d, i = .readAck a l d) → Direction.hostToDevice = .deviceToHost) :=
  ⟨rfl, rfl, rfl, fun _ => rfl, (by rintro ⟨_, _, _, h⟩; cases h)⟩

theorem witness_DecodeOfEncode_readAck :
    let i := Instr.readAck 0x00 0x01 [0x5A]
    Config.default.legal = true ∧ i.wellFormed = true ∧ (encode .default i).isSome = true ∧
      ((∃ a l, i = .readReq a l) → Direction.deviceToHost = .hostToDevice) ∧
      ((∃ a l d, i = .readAck a l d) → Direction.deviceToHost = .deviceToHost) :=
  ⟨rfl, rfl, rfl, (by rintro ⟨_, _, h⟩; cases h), fun _ => rfl⟩

theorem witness_EncodeOfDecode :
    decodeFrame .default .deviceToHost [0xAA, 0x77, 0x03, 0x00, 0x01, 0x5A, 0x6D, 0xF5, 0xAA]
      = .ok (.readAck 0x00 0x01 [0x5A], [0xAA]) := by decide +kernel

theorem witness_DecodeRejectsByName :
    ¬((0xAA : Byte) = Config.default.sync1 ∧ (0xAA : Byte) = Config.default.sync2) ∧
    (0x06 : Byte) ≠ Config.default.cmdRead ∧ (0x06 : Byte) ≠ Config.default.cmdWrite ∧
      (0x06 : Byte) ≠ Config.default.cmdAngleTlm := by decide

theorem witness_BitReversals : (7 : Nat) < 8 ∧ (15 : Nat) < 16 := by decide

theorem witness_OneChangedByteChangesTheCode :
    Config.default.crcPoly.getLsbD 0 = true ∧ (0x00 : Byte) ≠ 0x01 := by decide

/-- With ChecksumIsItsStream and HostWritesItsRegister. -/
theorem witness_StreamingOperations :
    let s := { State.reset with crcAcc := some 0xFFFF }
    s.busy = false ∧ s.crcAcc = some 0xFFFF ∧ 254 < s.cfg.maxLen ∧ s.cfg.maxLen ≤ 255 :=
  ⟨rfl, rfl, by decide, by decide⟩

theorem witness_CrcBeforeInitRefused : State.reset.crcAcc = none := rfl

/-- An operand register without a value, and a command outside the closed set. -/
theorem witness_SendRefusedOtherwise :
    (¬∃ f, SendAdmitted State.reset f) ∧
      ¬∃ f, SendAdmitted (loadTx 0x07 0x01 0x01 [0x09] State.reset) f := by
  constructor
  · rintro ⟨f, h⟩
    cases h.2.2.2.1
  · rintro ⟨⟨cmd, addr, len, n, data⟩, -, -, -, hc, -, -, -, -, -, h, -⟩
    obtain rfl : (0x07 : Byte) = cmd := Option.some.inj hc
    exact absurd h (show ¬((0x07 : Byte) = 0x03 ∨ (0x07 : Byte) = 0x04 ∨ (0x07 : Byte) = 0x05) by decide)

theorem witness_SendEmitsTheFrame :
    let s := loaded (List.replicate (7 + req.data.length) .accepted ++ [])
    SendAdmitted s req ∧ HostWaits s ∧ (∃ t, exec .send s = .next t) ∧
      s.putAnswers = List.replicate (7 + req.data.length) .accepted ++ [] :=
  ⟨admitted _, waits_of_empty rfl, ⟨_, rfl⟩, loaded_putAnswers _⟩

/-- The first and the last byte that can be rejected. -/
theorem witness_SendStopsAtARejectedByte (k : Nat) (hk : k = 0 ∨ k = 6) :
    let s := loaded (List.replicate k .accepted ++ .rejected :: [])
    SendAdmitted s req ∧ HostWaits s ∧ (∃ t, exec .send s = .next t) ∧ k < 7 + req.data.length ∧
      s.putAnswers = List.replicate k .accepted ++ .rejected :: [] :=
  ⟨admitted _, waits_of_empty rfl, ⟨_, rfl⟩, by simp only [req, List.length_nil]; omega,
    loaded_putAnswers _⟩

theorem witness_SendStepFrame : ∃ t, txStep (sending 0 [.accepted]) = .next t := ⟨_, rfl⟩

theorem witness_RecvStarts : RecvAdmitted State.reset := recvAdmitted []

/-- A command expected that was never written. -/
theorem witness_RecvRefusedOtherwise : ¬RecvAdmitted { State.reset with expectAny := false } := by
  rintro ⟨-, -, -, h⟩
  revert h
  unfold State.ExpectSet
  decide

theorem witness_SearchAttempt_timeout :
    let s := searching 49 true [.timeout]
    s.txState = .idle ∧ s.rxState = .search ∧ s.scanCnt < s.cfg.syncCap ∧ s.linkIn = .timeout :: [] :=
  ⟨rfl, rfl, by decide, rfl⟩

theorem witness_SearchAttempt_match :
    let s := searching 49 true [.byte 0x77]
    s.txState = .idle ∧ s.rxState = .search ∧ s.scanCnt < s.cfg.syncCap ∧
      s.linkIn = .byte 0x77 :: [] ∧ s.sawSync1 = true ∧ (0x77 : Byte) = s.cfg.sync2 :=
  ⟨rfl, rfl, by decide, rfl, rfl, rfl⟩

theorem witness_SearchAttempt_other :
    let s := searching 0 false [.byte 0x77]
    s.txState = .idle ∧ s.rxState = .search ∧ s.scanCnt < s.cfg.syncCap ∧
      s.linkIn = .byte 0x77 :: [] ∧ ¬(s.sawSync1 = true ∧ (0x77 : Byte) = s.cfg.sync2) :=
  ⟨rfl, rfl, by decide, rfl, by decide⟩

/-- A SYNC1 as the noise, directly before the pair. -/
theorem witness_SyncFoundWithinTheCap :
    ∃ s : State, RecvAdmitted s ∧ HostWaits s ∧ (∃ t, exec .recv s = .next t) ∧
      s.linkIn = [.byte 0xAA] ++ .byte 0xAA :: .byte 0x77 :: [.timeout] ∧
      s.cfg.sync1 = 0xAA ∧ s.cfg.sync2 = 0x77 ∧
      ¬HasSync s.cfg [.byte 0xAA] ∧ [GetAnswer.byte 0xAA].length + 2 ≤ s.cfg.syncCap :=
  ⟨linked _ [], recvAdmitted _, waits_of_empty rfl, ⟨_, rfl⟩, linked_linkIn _ _, rfl, rfl,
    no_sync_of_short (by decide), show (3 : Nat) ≤ 50 by decide⟩

/-- A silent link: fifty timeouts. -/
theorem witness_CapEndsTheSearch :
    let s := linked (List.replicate 50 .timeout) []
    RecvAdmitted s ∧ HostWaits s ∧ (∃ t, exec .recv s = .next t) ∧
      s.cfg.syncCap ≤ s.linkIn.length ∧ ¬HasSync s.cfg (s.linkIn.take s.cfg.syncCap) := by
  refine ⟨recvAdmitted _, waits_of_empty rfl, ⟨_, rfl⟩, by decide, ?_⟩
  rintro ⟨i, h1, -⟩
  have h2 := List.eq_of_mem_replicate (List.mem_of_mem_take (List.mem_of_getElem? h1))
  cases h2

theorem witness_HeaderByte (k : Nat) :
    let s := inHeader k [.byte 0x00]
    s.txState = .idle ∧ s.rxState = .header ∧ s.linkIn = .byte 0x00 :: [] ∧ s.rxIdx = k :=
  ⟨rfl, rfl, rfl, rfl⟩

theorem witness_DataByte :
    let s := inData [.byte 0x5A]
    s.txState = .idle ∧ s.rxState = .data ∧ s.rxLen = some 0x01 ∧ s.rxIdx < (0x01 : Byte).toNat ∧
      s.linkIn = .byte 0x5A :: [] :=
  ⟨rfl, rfl, rfl, by decide, rfl⟩

/-- The timeout clauses of HeaderByte and DataByte. -/
theorem witness_HeaderByte_timeout :
    let s := inHeader 0 [.timeout]
    s.txState = .idle ∧ s.rxState = .header ∧ s.linkIn = .timeout :: [] :=
  ⟨rfl, rfl, rfl⟩

theorem witness_DataByte_timeout :
    let s := inData [.timeout]
    s.txState = .idle ∧ s.rxState = .data ∧ s.rxLen = some 0x01 ∧ s.rxIdx < (0x01 : Byte).toNat ∧
      s.linkIn = .timeout :: [] :=
  ⟨rfl, rfl, rfl, by decide, rfl⟩

/-- The fifth data byte with MAX_LEN 4: it has no element. -/
theorem witness_DataByte_past_the_end :
    let s := { shortBuffers with
      rxState := .data, rxLen := some 0x05, rxIdx := 4, linkIn := [.byte 0x5A] }
    s.txState = .idle ∧ s.rxState = .data ∧ s.rxLen = some 0x05 ∧ s.rxIdx < (0x05 : Byte).toNat ∧
      s.linkIn = .byte 0x5A :: [] ∧ s.cfg.maxLen ≤ 4 :=
  ⟨rfl, rfl, rfl, by decide, rfl, by decide⟩

theorem witness_ChecksumBytes_first :
    let s := inCk 0 [.byte 0x6D]
    s.txState = .idle ∧ s.rxState = .ck ∧ s.linkIn = .byte 0x6D :: [] ∧ s.rxIdx = 0 :=
  ⟨rfl, rfl, rfl, rfl⟩

theorem witness_ChecksumBytes_second :
    let s := inCk 1 [.byte 0xF4]
    s.txState = .idle ∧ s.rxState = .ck ∧ s.linkIn = .byte 0xF4 :: [] ∧ s.rxIdx = 1 ∧
      s.rxCrc = some 0xB6AF ∧ s.rxCkLo = some 0x6D ∧ s.rxCmd.isSome = true ∧ s.ExpectSet ∧
      ¬((0x6D : Byte) = lo8 (rev16 0xB6AF) ∧ (0xF4 : Byte) = hi8 (rev16 0xB6AF)) :=
  ⟨rfl, rfl, rfl, rfl, rfl, rfl, rfl, .inl rfl, by decide⟩

theorem witness_CommandTestAndSuccess_ok :
    let s := inCk 1 [.byte 0xF5]
    s.txState = .idle ∧ s.rxState = .ck ∧ s.rxIdx = 1 ∧ s.rxCrc = some 0xB6AF ∧
      s.rxCmd = some 0x03 ∧ s.rxCkLo = some (lo8 (rev16 0xB6AF)) ∧
      s.linkIn = .byte (hi8 (rev16 0xB6AF)) :: [] ∧ s.Expects 0x03 :=
  ⟨rfl, rfl, rfl, rfl, rfl, by decide, by decide, .inl rfl⟩

theorem witness_CommandTestAndSuccess_mismatch :
    let s := { inCk 1 [.byte 0xF5] with expectAny := false, expectCmd := some 0x05 }
    s.txState = .idle ∧ s.rxState = .ck ∧ s.rxIdx = 1 ∧ s.rxCrc = some 0xB6AF ∧
      s.rxCmd = some 0x03 ∧ s.rxCkLo = some (lo8 (rev16 0xB6AF)) ∧
      s.linkIn = .byte (hi8 (rev16 0xB6AF)) :: [] ∧ s.expectAny = false ∧
      s.expectCmd = some 0x05 ∧ (0x03 : Byte) ≠ 0x05 :=
  ⟨rfl, rfl, rfl, rfl, rfl, by decide, by decide, rfl, rfl, by decide⟩

theorem witness_TimeoutAfterSync_header :
    let s := inHeader 2 [.timeout]
    s.txState = .idle ∧ s.rxState = .header ∧ s.linkIn = .timeout :: [] :=
  ⟨rfl, rfl, rfl⟩

theorem witness_TimeoutAfterSync_data :
    let s := inData [.timeout]
    s.txState = .idle ∧ (s.rxState = .data ∧ s.rxLen = some 0x01 ∧ s.rxIdx < (0x01 : Byte).toNat) ∧
      s.linkIn = .timeout :: [] :=
  ⟨rfl, ⟨rfl, rfl, by decide⟩, rfl⟩

theorem witness_TimeoutAfterSync_ck :
    let s := inCk 1 [.timeout]
    s.txState = .idle ∧ s.rxState = .ck ∧ s.linkIn = .timeout :: [] :=
  ⟨rfl, rfl, rfl⟩

theorem witness_RecvStepFrame : ∃ t, rxStep (inData [.byte 0x5A]) = .next t := ⟨_, rfl⟩

theorem witness_NoiseThenFrameDelivered :
    let noise := [GetAnswer.byte 0xAA]
    let s := linked (noise ++ (frameBytes .default 0x03 0x00 0x01 [0x5A]).map .byte ++ []) []
    RecvAdmitted s ∧ HostWaits s ∧ (∃ t, exec .recv s = .next t) ∧
      [(0x5A : Byte)].length = (0x01 : Byte).toNat ∧ s.Expects 0x03 ∧
      s.linkIn = noise ++ (frameBytes s.cfg 0x03 0x00 0x01 [0x5A]).map .byte ++ [] ∧
      ¬HasSync s.cfg noise ∧ noise.length + 2 ≤ s.cfg.syncCap :=
  ⟨recvAdmitted _, waits_of_empty rfl, ⟨_, rfl⟩, by decide, .inl rfl, rfl, no_sync_of_short (by decide),
    by decide⟩

/-- Telemetry ahead of a response (V17). -/
theorem witness_UnexpectedFrameConsumedWhole :
    let s := { linked ((frameBytes .default 0x05 0x60 0x00 []).map .byte ++ []) [] with
      expectAny := false, expectCmd := some 0x03 }
    RecvAdmitted s ∧ HostWaits s ∧ (∃ t, exec .recv s = .next t) ∧ 2 ≤ s.cfg.syncCap ∧
      ([] : List Byte).length = (0x00 : Byte).toNat ∧ s.expectAny = false ∧
      s.expectCmd = some 0x03 ∧ (0x05 : Byte) ≠ 0x03 ∧
      s.linkIn = (frameBytes s.cfg 0x05 0x60 0x00 []).map .byte ++ [] :=
  ⟨⟨rfl, rfl, rfl, .inr rfl⟩, waits_of_empty rfl, ⟨_, rfl⟩, by decide, rfl, rfl, rfl, by decide, rfl⟩

/-- A flipped address bit (V12), and a flipped data bit, the last byte that counts. -/
theorem witness_ChangedByteIsCorruption (k : Nat) (b : Byte)
    (hk : (k = 3 ∧ b = 0x01) ∨ (k = 5 ∧ b = 0xDA)) :
    let s := linked (((frameBytes .default 0x03 0x00 0x01 [0x5A]).set k b).map .byte ++ []) []
    RecvAdmitted s ∧ HostWaits s ∧ (∃ t, exec .recv s = .next t) ∧ 2 ≤ s.cfg.syncCap ∧
      s.cfg.crcPoly.getLsbD 0 = true ∧ [(0x5A : Byte)].length = (0x01 : Byte).toNat ∧
      (k = 2 ∨ k = 3 ∨ (5 ≤ k ∧ k < 5 + [(0x5A : Byte)].length)) ∧
      (frameBytes s.cfg 0x03 0x00 0x01 [0x5A])[k]? ≠ some b ∧
      s.linkIn = ((frameBytes s.cfg 0x03 0x00 0x01 [0x5A]).set k b).map .byte ++ [] := by
  refine ⟨recvAdmitted _, waits_of_empty rfl, ⟨_, rfl⟩, show (2 : Nat) ≤ 50 by decide,
    show (0x8005 : Code).getLsbD 0 = true by decide, by decide, ?_, ?_, rfl⟩
  · rcases hk with ⟨rfl, -⟩ | ⟨rfl, -⟩ <;> decide
  · rcases hk with ⟨rfl, rfl⟩ | ⟨rfl, rfl⟩
    · show (frameBytes .default 0x03 0x00 0x01 [0x5A])[3]? ≠ some 0x01
      decide +kernel
    · show (frameBytes .default 0x03 0x00 0x01 [0x5A])[5]? ≠ some 0xDA
      decide +kernel

/-- `SEND 03, 00, 01, [5A]` (V8), and the same frame given to RECV ANY. -/
theorem witness_RoundTrip :
    let f : TxOperands := ⟨0x03, 0x00, 0x01, 0x01, [0x5A]⟩
    let s := loadTx 0x03 0x00 0x01 [0x5A] (linked [] (List.replicate (7 + f.data.length) .accepted ++ []))
    let r := linked ((frameBytes .default 0x03 0x00 0x01 [0x5A]).map .byte ++ []) []
    SendAdmitted s f ∧ f.ndata = f.len ∧ HostWaits s ∧ (∃ t, exec .send s = .next t) ∧
      s.putAnswers = List.replicate (7 + f.data.length) .accepted ++ [] ∧ RecvAdmitted r ∧
      r.cfg = s.cfg ∧ r.expectAny = true ∧ 2 ≤ r.cfg.syncCap ∧ HostWaits r ∧
      ∃ t, exec .recv r = .next t := by
  refine ⟨⟨rfl, rfl, rfl, rfl, rfl, rfl, rfl, rfl, ?_, .inl rfl, show (1 : Nat) ≤ 255 by decide,
    .inl rfl⟩, rfl, waits_of_empty rfl,
    ⟨_, rfl⟩, rfl, recvAdmitted _, rfl, rfl, by decide, waits_of_empty rfl, ⟨_, rfl⟩⟩
  intro k hk
  obtain rfl : k = 0 := Nat.lt_one_iff.1 hk
  rfl

/-- For ReadReqIsItsSend and WriteIsItsSend: with the longest data, with an unfitting data count, and
with a LENGTH past a MAX_LEN of 4. -/
theorem witness_WriteIsItsSend :
    (State.reset.cfg.legal = true ∧ State.reset.linkOpen = true ∧ State.reset.busy = false) ∧
      (List.replicate 255 (0x00 : Byte)).length = (0xFF : Byte).toNat ∧
      (0xFF : Byte).toNat ≤ State.reset.cfg.maxLen ∧
      ([] : List Byte).length ≠ (0x01 : Byte).toNat ∧
      (let s := shortBuffers;
        s.cfg.legal = true ∧ s.linkOpen = true ∧ s.busy = false ∧ s.cfg.maxLen < (0x05 : Byte).toNat) :=
  ⟨⟨rfl, rfl, rfl⟩, by rw [List.length_replicate]; rfl, by decide, by decide, rfl, rfl, rfl, by decide⟩

/-- Open and closed, idle and busy. -/
theorem witness_LinkOpensAndCloses :
    State.reset.busy = false ∧ (sending 0 []).busy = true ∧
      ({ State.reset with linkOpen := false } : State).linkOpen = false :=
  ⟨rfl, rfl, rfl⟩

theorem witness_BusyRefuses : (sending 0 []).busy = true ∧ (inData []).busy = true := ⟨rfl, rfl⟩

theorem witness_ResultRegistersReadOnlyWhenValid :
    State.reset.rxValid = false ∧ delivered.rxValid = true ∧
      delivered.RxHolds 0x03 0x00 0x01 [0x5A] ∧ [(0x5A : Byte)].length = (0x01 : Byte).toNat ∧
      0 < delivered.cfg.maxLen ∧ [(0x5A : Byte)][0]? = some 0x5A ∧ [(0x5A : Byte)].length ≤ 1 :=
  ⟨rfl, rfl, ⟨rfl, rfl, rfl, holds_5A⟩, by decide, by decide, rfl, by decide⟩

/-- Elements on both sides of the end of the buffer. -/
theorem witness_HostReadsItsRegister :
    254 < State.reset.cfg.maxLen ∧ State.reset.cfg.maxLen ≤ 255 ∧
      State.reset.expectCmd = none ∧
      ({ State.reset with expectCmd := some 0x05 } : State).expectCmd = some 0x05 := by decide

/-- R32's layout of EXPECT: ANY = 1 and CMD = 05 are the nine bits 1 0000 0101. -/
theorem test_read_expect_whole :
    (nextOf (hostRead .expect { State.reset with expectCmd := some 0x05 })).map (·.result)
      = some (some 0x105) := by
  decide

/-- A device register space whose register 0 holds 5A, asked for that register. -/
theorem witness_RegisterReadReturnsTheRegisters :
    let response := frameBytes .default 0x03 0x00 0x01 [0x5A]
    let s := linked (response.map .byte ++ []) (List.replicate 7 .accepted ++ [])
    s.cfg.legal = true ∧ s.linkOpen = true ∧ s.busy = false ∧ 2 ≤ s.cfg.syncCap ∧
      (0x01 : Byte).toNat ≤ s.cfg.maxLen ∧ EnvDeviceRx s.cfg (crc16 s.cfg) ∧
      EnvAckShape s.cfg (crc16 s.cfg) [(0, 0x5A)] 0x00 0x01 response ∧
      s.putAnswers = List.replicate 7 .accepted ++ [] ∧ s.linkIn = response.map .byte ++ [] :=
  ⟨rfl, rfl, rfl, show (2 : Nat) ≤ 50 by decide, show (1 : Nat) ≤ 255 by decide,
    fun _ => rfl, ⟨[0x5A], by decide, rfl⟩, rfl, rfl⟩

/-- ENV_TELEMETRY at a rate of 10: a telemetry frame, with a timeout inside it, ahead of a response. -/
theorem test_env_telemetry_ahead :
    let tlm := frameBytes .default 0x05 (Config.devAddr .angleFb) 7 (List.replicate 7 0x5A)
    let ack := frameBytes .default 0x03 0x00 0x01 [0x5A]
    EnvTelemetry .default (crc16 .default) 10 [ack]
      ((tlm.take 3).map .byte ++ .timeout :: (tlm.drop 3).map .byte ++ ack.map .byte) := by
  intro tlm ack
  refine ⟨[.telemetry tlm, .response ack], ?_, rfl, fun h => absurd h (by decide), fun _ _ b hb => ?_⟩
  · have h : ∀ l : List Byte, (l.map GetAnswer.byte).flatMap GetAnswer.bytes = l := fun l => by
      induction l with
      | nil => rfl
      | cons b l ih => simp [GetAnswer.bytes, ih]
    simp only [List.flatMap_append, List.flatMap_cons, h, Emission.bytes]
    simp [GetAnswer.bytes]
  · obtain rfl : b = tlm := by simpa using hb
    refine ⟨List.replicate 7 0x5A, rfl, fun a ha => ?_, rfl⟩
    rw [List.eq_of_mem_replicate ha]
    decide

/-- A telemetry poll whose frame has another address gives the host no angles (R173). -/
theorem test_telemetry_address_is_checked (l : List Byte) :
    atAngleFeedback (.next (.ok l, State.reset)) = .next (.error .shape, State.reset) := rfl

/-- Seven offset bytes. -/
def sevenBytes : List Byte := List.replicate 7 0x80

/-- The bracket sent whole, and with its second frame rejected at the first and the last byte. -/
theorem witness_BracketRelocksAfterTheWrite (k : Nat) (hk : k = 0 ∨ k = 13) :
    (∃ s : State, s.cfg.legal = true ∧ s.linkOpen = true ∧ s.busy = false ∧
      sevenBytes.length ≤ 255 ∧ 1 ≤ s.cfg.maxLen ∧ sevenBytes.length ≤ s.cfg.maxLen ∧
      s.putAnswers = List.replicate (8 + (7 + sevenBytes.length) + 8) .accepted ++ []) ∧
    (∃ s : State, s.cfg.legal = true ∧ s.linkOpen = true ∧ s.busy = false ∧
      k < 7 + sevenBytes.length ∧
      s.putAnswers = List.replicate (8 + k) .accepted ++ .rejected ::
        (List.replicate 8 .accepted ++ [])) :=
  ⟨⟨linked [] _, rfl, rfl, rfl, by decide, show (1 : Nat) ≤ 255 by decide,
      show (7 : Nat) ≤ 255 by decide, linked_putAnswers _ _⟩,
    ⟨linked [] _, rfl, rfl, rfl, by rw [sevenBytes, List.length_replicate]; omega,
      linked_putAnswers _ _⟩⟩

/-- The ends of the ranges of the conversions. -/
theorem witness_UnitConversions :
    (-128 : Int) ≤ -128 ∧ (127 : Int) ≤ 127 ∧ (-1024 : Int) ≤ -1024 ∧ (64511 : Int) ≤ 64511 := by
  decide

end Sys2Proof.Tests
end

section
/-! PROOF. The bytes of a frame by index (R70): the covered bytes first, then the two checksum bytes. -/

namespace Sys2Proof.Machine

section
variable (c : Config) (cmd addr len : Byte) (data : List Byte)

/-- The bytes before the checksum are the covered bytes (R71). -/
theorem frameBytes_take_covered :
    (frameBytes c cmd addr len data).take (5 + data.length) = covered c cmd addr len data :=
  List.take_left' (covered_length c cmd addr len data)

theorem frameBytes_getElem?_data {i : Nat} (hi : i < data.length) :
    (frameBytes c cmd addr len data)[5 + i]? = data[i]? := by
  have hcov : 5 + i < (covered c cmd addr len data).length := by
    rw [covered_length]; omega
  calc (frameBytes c cmd addr len data)[5 + i]?
      = (covered c cmd addr len data)[5 + i]? := List.getElem?_append_left hcov
    _ = data[5 + i - 5]? := List.getElem?_append_right (Nat.le_add_right 5 i)
    _ = data[i]? := by rw [Nat.add_sub_cancel_left]

theorem frameBytes_getElem?_ckBytes (j : Nat) :
    (frameBytes c cmd addr len data)[5 + data.length + j]? =
      (ckBytes c (covered c cmd addr len data))[j]? := by
  rw [← covered_length c cmd addr len data, frameBytes,
    List.getElem?_append_right (Nat.le_add_right _ j), Nat.add_sub_cancel_left]

end

/-- Settles O16: the header is read off the front, the data and the checksum bytes by their index. -/
theorem frameLayout : Obligations.FrameLayout := by
  intro c cmd addr len data fr
  have hlen : fr.length = 5 + data.length + 2 := by
    rw [frameBytes_length]; omega
  have hlo := frameBytes_getElem?_ckBytes c cmd addr len data 0
  have hhi := frameBytes_getElem?_ckBytes c cmd addr len data 1
  rw [← frameBytes_take_covered c cmd addr len data] at hlo hhi
  rw [show 5 + data.length + 1 = 6 + data.length by omega] at hhi
  exact ⟨hlen, rfl, rfl, rfl, rfl, rfl,
    fun _ hi => frameBytes_getElem?_data c cmd addr len data hi, hlo, hhi⟩

end Sys2Proof.Machine
end

section
/-! PROOF. The bit reversals (R101, R104) and the fold of a byte step (R102), half by half. -/

namespace Sys2Proof.Machine

theorem hi8_xor (v w : Code) : hi8 (v ^^^ w) = hi8 v ^^^ hi8 w := BitVec.extractLsb'_xor

theorem lo8_xor (v w : Code) : lo8 (v ^^^ w) = lo8 v ^^^ lo8 w := BitVec.extractLsb'_xor

theorem hi8_setWidth_shiftLeft (b : Byte) : hi8 (b.setWidth 16 <<< 8) = b := by
  apply BitVec.eq_of_getLsbD_eq
  intro i hi
  simp [hi8, hi, show 8 + i < 16 by omega]

theorem lo8_setWidth_shiftLeft (b : Byte) : lo8 (b.setWidth 16 <<< 8) = 0 := by
  apply BitVec.eq_of_getLsbD_eq
  intro i hi
  simp [lo8, hi]

theorem hi8_crcFold (reg : Code) (b : Byte) : hi8 (crcFold reg b) = hi8 reg ^^^ rev8 b := by
  rw [crcFold, hi8_xor, hi8_setWidth_shiftLeft]

theorem lo8_crcFold (reg : Code) (b : Byte) : lo8 (crcFold reg b) = lo8 reg := by
  rw [crcFold, lo8_xor, lo8_setWidth_shiftLeft]
  exact BitVec.xor_zero

/-- Settles O21: by the laws of the two reversals; the six values of R101 are computed. -/
theorem bitReversals : Obligations.BitReversals :=
  ⟨fun b _ hi => rev8_getLsbD b hi, rev8_rev8, by decide, fun w _ hi => rev16_getLsbD w hi⟩

/-- Settles O22: the two halves of the fold, each by the halves of the XOR and of the shifted byte. -/
theorem foldEntersTheHighByte : Obligations.FoldEntersTheHighByte :=
  fun reg b => ⟨rfl, hi8_crcFold reg b, lo8_crcFold reg b⟩

end Sys2Proof.Machine
end

section
/-! PROOF. The Checksum Engine: one division step seen from the least significant bit (the equivalent
form of 40_checksum.md section 3), the residue law, and the steps that lose nothing. -/

namespace Sys2Proof.Machine

/-! ### The reversal of a code -/

theorem rev16_xor (v w : Code) : rev16 (v ^^^ w) = rev16 v ^^^ rev16 w := by
  apply BitVec.eq_of_getLsbD_eq
  intro i hi
  simp [rev16_getLsbD _ hi]

theorem rev16_shiftLeft_one (w : Code) : rev16 (w <<< 1) = rev16 w >>> 1 := by
  apply BitVec.eq_of_getLsbD_eq
  intro i hi
  rw [rev16_getLsbD _ hi, BitVec.getLsbD_shiftLeft, BitVec.getLsbD_ushiftRight]
  by_cases h15 : i = 15
  · subst i; simp [rev16]
  · rw [rev16_getLsbD _ (by omega), show 15 - i - 1 = 15 - (1 + i) by omega]
    simp [show 15 - i < 16 by omega, show 15 - i ≠ 0 by omega]

/-- The reversed byte in the high byte is, reversed, the byte itself in the low byte. -/
theorem rev16_rev8_shiftLeft (b : Byte) : rev16 ((rev8 b).setWidth 16 <<< 8) = b.setWidth 16 := by
  apply BitVec.eq_of_getLsbD_eq
  intro i hi
  rw [rev16_getLsbD _ hi]
  by_cases h8 : i < 8
  · have hb : (rev8 b).getLsbD (15 - i - 8) = b.getLsbD i := by
      rw [rev8_getLsbD _ (by omega)]; congr 1; omega
    simp [hb, hi, show 15 - i < 16 by omega, show ¬15 - i < 8 by omega]
  · simp [show 15 - i < 8 by omega, BitVec.getLsbD_of_ge b i (by omega)]

theorem rev16_crcFold (reg : Code) (b : Byte) :
    rev16 (crcFold reg b) = rev16 reg ^^^ b.setWidth 16 := by
  rw [crcFold, rev16_xor, rev16_rev8_shiftLeft]

/-! ### The least-significant-bit-first form -/

/-- One division step to the right, with the reversed polynomial. -/
def rightStep (rpoly r : Code) : Code := if r.getLsbD 0 then (r >>> 1) ^^^ rpoly else r >>> 1

/-- A byte step of the equivalent form: the unreversed byte into the low byte, eight steps right. -/
def rightByte (rpoly r : Code) (b : Byte) : Code := (rightStep rpoly)^[8] (r ^^^ b.setWidth 16)

theorem rev16_divStep (poly reg : Code) :
    rev16 (divStep poly reg) = rightStep (rev16 poly) (rev16 reg) := by
  have hbit : (rev16 reg).getLsbD 0 = reg.getLsbD 15 := rev16_getLsbD reg (by omega)
  unfold divStep rightStep
  rw [hbit]
  split
  · rw [rev16_xor, rev16_shiftLeft_one]
  · exact rev16_shiftLeft_one reg

theorem divSteps_eq_iterate (poly : Code) (n : Nat) (reg : Code) :
    divSteps poly n reg = (divStep poly)^[n] reg := by
  induction n generalizing reg with
  | zero => rfl
  | succ n ih => exact ih _

theorem rev16_byteStep (poly reg : Code) (b : Byte) :
    rev16 (byteStep poly reg b) = rightByte (rev16 poly) (rev16 reg) b := by
  have hsteps : Function.Semiconj rev16 (divStep poly) (rightStep (rev16 poly)) := rev16_divStep poly
  rw [byteStep, divSteps_eq_iterate, (hsteps.iterate_right 8).eq, rev16_crcFold, rightByte]

theorem rev16_crcReg (poly reg : Code) (s : List Byte) :
    rev16 (crcReg poly reg s) = s.foldl (rightByte (rev16 poly)) (rev16 reg) :=
  (List.foldl_hom rev16 fun reg b => (rev16_byteStep poly reg b).symm).symm

/-- Settles O23: the reversal carries every division step to a step to the right. -/
theorem reflectedForm : Obligations.ReflectedForm :=
  fun c s => rev16_crcReg c.crcPoly c.crcInit s

/-! ### The residue law -/

/-- Steps to the right over bits that are 0 only shift. -/
theorem rightStep_iterate_of_zero_bits (rpoly : Code) (n : Nat) (r : Code)
    (h : ∀ i, i < n → r.getLsbD i = false) : (rightStep rpoly)^[n] r = r >>> n := by
  induction n generalizing r with
  | zero => simp
  | succ n ih =>
    have h0 : rightStep rpoly r = r >>> 1 := if_neg (by rw [h 0 (by omega)]; decide)
    have hbits : ∀ i, i < n → (r >>> 1).getLsbD i = false := by
      intro i hi
      rw [BitVec.getLsbD_ushiftRight]
      exact h (1 + i) (by omega)
    rw [Function.iterate_succ_apply, h0, ih _ hbits, ← BitVec.shiftRight_add, Nat.add_comm 1 n]

theorem rightByte_lo8 (rpoly w : Code) : rightByte rpoly w (lo8 w) = w >>> 8 := by
  have hlo : ∀ i, i < 8 → (w ^^^ (lo8 w).setWidth 16).getLsbD i = false := by
    intro i hi
    simp [lo8, hi, show i < 16 by omega]
  rw [rightByte, rightStep_iterate_of_zero_bits _ 8 _ hlo]
  apply BitVec.eq_of_getLsbD_eq
  intro i hi
  simp [lo8]

theorem rightByte_hi8 (rpoly w : Code) : rightByte rpoly (w >>> 8) (hi8 w) = 0 := by
  have hzero : w >>> 8 ^^^ (hi8 w).setWidth 16 = 0 := by
    apply BitVec.eq_of_getLsbD_eq
    intro i hi
    by_cases h8 : i < 8
    · simp [hi8, h8, hi]
    · simp [hi8, h8, BitVec.getLsbD_of_ge w (8 + i) (by omega)]
  rw [rightByte, hzero, rightStep_iterate_of_zero_bits _ 8 _ (by simp)]
  rfl

/-- Settles O24: in the equivalent form the low byte empties the low half, the high byte the rest. -/
theorem residueIsZero : Obligations.ResidueIsZero := by
  intro c s
  set w := crc16 c s with hw
  have hreg : crcReg c.crcPoly c.crcInit s = rev16 w := (rev16_rev16 _).symm
  rw [crc16, crcReg_append, hreg, rev16_crcReg, rev16_rev16]
  simp only [List.foldl_cons, List.foldl_nil, rightByte_lo8, rightByte_hi8]

/-! ### Steps that lose nothing -/

/-- With a constant term in the polynomial the bit shifted out comes back at the bottom. -/
theorem divStep_getLsbD_zero {poly : Code} (hp : poly.getLsbD 0 = true) (reg : Code) :
    (divStep poly reg).getLsbD 0 = reg.getLsbD 15 := by
  unfold divStep
  split <;> simp_all

theorem shiftLeft_one_injective {v w : Code} (h : v <<< 1 = w <<< 1)
    (h15 : v.getLsbD 15 = w.getLsbD 15) : v = w := by
  apply BitVec.eq_of_getLsbD_eq
  intro i hi
  by_cases h' : i = 15
  · exact h' ▸ h15
  · have hbit := congrArg (fun u => u.getLsbD (i + 1)) h
    simpa only [BitVec.getLsbD_shiftLeft, show i + 1 < 16 by omega, show ¬i + 1 < 1 by omega,
      decide_true, decide_false, Bool.not_false, Bool.true_and, Nat.add_sub_cancel] using hbit

theorem divStep_injective {poly : Code} (hp : poly.getLsbD 0 = true) :
    Function.Injective (divStep poly) := by
  intro v w h
  have h15 : v.getLsbD 15 = w.getLsbD 15 := by
    rw [← divStep_getLsbD_zero hp, h, divStep_getLsbD_zero hp]
  refine shiftLeft_one_injective ?_ h15
  unfold divStep at h
  rw [h15] at h
  split at h
  · exact (BitVec.xor_left_inj _).1 h
  · exact h

theorem divSteps_injective {poly : Code} (hp : poly.getLsbD 0 = true) (n : Nat) :
    Function.Injective (divSteps poly n) := by
  rw [show divSteps poly n = (divStep poly)^[n] from funext (divSteps_eq_iterate poly n)]
  exact (divStep_injective hp).iterate n

theorem byteStep_injective_reg {poly : Code} (hp : poly.getLsbD 0 = true) (b : Byte) :
    Function.Injective (byteStep poly · b) :=
  fun _ _ h => (BitVec.xor_left_inj _).1 (divSteps_injective hp 8 h)

theorem byteStep_injective_byte {poly : Code} (hp : poly.getLsbD 0 = true) (reg : Code) :
    Function.Injective (byteStep poly reg) := by
  intro b b' h
  have hhi := congrArg hi8 (divSteps_injective hp 8 h)
  rw [hi8_crcFold, hi8_crcFold] at hhi
  rw [← rev8_rev8 b, (BitVec.xor_right_inj _).1 hhi, rev8_rev8]

theorem crcReg_injective {poly : Code} (hp : poly.getLsbD 0 = true) (s : List Byte) :
    Function.Injective (crcReg poly · s) := by
  induction s with
  | nil => exact fun _ _ h => h
  | cons b s ih => exact fun _ _ h => byteStep_injective_reg hp b (ih h)

/-- Settles O25: the changed byte gives another register, and no later step makes them equal. -/
theorem oneChangedByteChangesTheCode : Obligations.OneChangedByteChangesTheCode := by
  intro c pre post b b' hp hb h
  have hreg := rev16_injective h
  rw [crcReg_append, crcReg_append] at hreg
  exact hb (byteStep_injective_byte hp _ (crcReg_injective hp post hreg))

/-- Settles O29: four codes, computed. -/
theorem knownCodes : Obligations.KnownCodes := by
  unfold Obligations.KnownCodes
  decide +kernel

end Sys2Proof.Machine
end

section
/-! PROOF. Frames as bytes: the decoder reads the covered bytes off the front (R70, R84) and then the
checksum (R71, R72), so it undoes the encoder, and it accepts nothing else. -/

namespace Sys2Proof.Machine

/-! ### What the decoder reads -/

section
variable {c : Config} {dir : Direction} {cmd addr len : Byte} {data tail : List Byte} {i : Instr}

/-- A request is read from its header alone (R85). -/
theorem decode_readReq :
    decode c .hostToDevice (covered c c.cmdRead addr len [] ++ tail) =
      .ok (.readReq addr len, tail) := by
  simp [covered, header, decode]

/-- A frame with data is read by its LENGTH (R84). -/
theorem decode_dataFrame (hdir : ¬(cmd = c.cmdRead ∧ dir = .hostToDevice))
    (hi : dataFrame c cmd addr len data = some i) (hlen : data.length = len.toNat) :
    decode c dir (covered c cmd addr len data ++ tail) = .ok (i, tail) := by
  have htake : (data ++ tail).take len.toNat = data := List.take_left' hlen
  have hdrop : (data ++ tail).drop len.toNat = tail := List.drop_left' hlen
  simp [covered, header, decode, hdir, htake, hdrop, hi, hlen]

/-- The checksum of the covered bytes follows them (R71, R72). -/
theorem decodeFrame_of_decode {cov rest : List Byte}
    (h : decode c dir (cov ++ (ckBytes c cov ++ rest)) = .ok (i, ckBytes c cov ++ rest)) :
    decodeFrame c dir (cov ++ ckBytes c cov ++ rest) = .ok (i, rest) := by
  have htake : (cov ++ (ckBytes c cov ++ rest)).take
      ((cov ++ (ckBytes c cov ++ rest)).length - (ckBytes c cov ++ rest).length) = cov :=
    List.take_left' (by simp)
  rw [List.append_assoc, decodeFrame, h]
  exact if_pos (by rw [htake]; rfl)

theorem decodeFrame_dataFrame {rest : List Byte} (hdir : ¬(cmd = c.cmdRead ∧ dir = .hostToDevice))
    (hi : dataFrame c cmd addr len data = some i) (hlen : data.length = len.toNat) :
    decodeFrame c dir (frameBytes c cmd addr len data ++ rest) = .ok (i, rest) :=
  decodeFrame_of_decode (decode_dataFrame hdir hi hlen)

end

theorem dataFits_iff {len : Byte} {data : List Byte} :
    dataFits len data = true ↔ data.length = len.toNat := by
  simp [dataFits]

/-- R10 for the command bytes. -/
theorem Config.legal_cmds {c : Config} (h : c.legal = true) :
    c.cmdRead ≠ c.cmdWrite ∧ c.cmdRead ≠ c.cmdAngleTlm ∧ c.cmdWrite ≠ c.cmdAngleTlm := by
  simp only [Config.legal, Bool.and_eq_true, bne_iff_ne] at h
  obtain ⟨⟨⟨-, hrw⟩, hra⟩, hwa⟩ := h
  exact ⟨hrw, hra, hwa⟩

/-- Settles O17: by the kind of the frame; the command bytes being distinct, each names its own. -/
theorem decodeOfEncode : Obligations.DecodeOfEncode := by
  intro c i w rest dir hc hwf hw hreq hack
  obtain ⟨hrw, hra, hwa⟩ := Config.legal_cmds hc
  cases i with
  | readReq a l =>
    obtain rfl := hreq ⟨a, l, rfl⟩
    obtain rfl := Option.some.inj hw
    exact decodeFrame_of_decode decode_readReq
  | readAck a l d =>
    obtain rfl := hack ⟨a, l, d, rfl⟩
    obtain rfl := Option.some.inj hw
    exact decodeFrame_dataFrame (by simp) (by simp [dataFrame]) (dataFits_iff.1 hwf)
  | write a l d =>
    obtain rfl := Option.some.inj hw
    exact decodeFrame_dataFrame (by simp [hrw.symm]) (by simp [dataFrame, hrw.symm])
      (dataFits_iff.1 hwf)
  | angleTlm a l d =>
    obtain rfl := Option.some.inj hw
    exact decodeFrame_dataFrame (by simp [hra.symm]) (by simp [dataFrame, hra.symm, hwa.symm])
      (dataFits_iff.1 hwf)
  | crcInit | crcByte _ | crcOut | checksum _ | send | recv => cases hw

/-! ### What the decoder accepts -/

section
variable {c : Config} {dir : Direction} {cmd addr len : Byte} {data bytes tail : List Byte}
  {i : Instr}

/-- A format D frame names an instruction that encodes to it. -/
theorem encode_of_dataFrame (h : dataFrame c cmd addr len data = some i)
    (hlen : data.length = len.toNat) :
    encode c i = some (frameBytes c cmd addr len data) ∧ i.wellFormed = true := by
  unfold dataFrame at h
  split at h
  · cases h
    exact ⟨by simp [encode, *], dataFits_iff.2 hlen⟩
  · split at h
    · cases h
      exact ⟨by simp [encode, *], dataFits_iff.2 hlen⟩
    · split at h
      · cases h
        exact ⟨by simp [encode, *], dataFits_iff.2 hlen⟩
      · cases h

/-- Bytes that decode are the covered bytes of a frame, whose instruction is well formed and encodes
to that frame. -/
theorem decode_eq_ok (h : decode c dir bytes = .ok (i, tail)) :
    ∃ cmd addr len data, bytes = covered c cmd addr len data ++ tail ∧
      encode c i = some (frameBytes c cmd addr len data) ∧ i.wellFormed = true := by
  unfold decode at h
  split at h
  · rename_i s1 s2 cmd addr len rest
    split at h
    · rename_i hsync
      obtain ⟨rfl, rfl⟩ := hsync
      split at h
      · rename_i hreq
        cases h
        exact ⟨cmd, addr, len, [], rfl, by rw [hreq.1]; rfl, rfl⟩
      · split at h
        · cases h
        · rename_i hframe
          split at h
          · cases h
          · rename_i hlong
            cases h
            have hlen : (rest.take len.toNat).length = len.toNat := by
              rw [List.length_take] at hlong ⊢; omega
            refine ⟨cmd, addr, len, rest.take len.toNat, ?_, encode_of_dataFrame hframe hlen⟩
            simp [covered, header]
    · cases h
  · cases h

/-- A whole frame that decodes is covered bytes that decode and their two checksum bytes. -/
theorem decodeFrame_eq_ok {rest : List Byte} (h : decodeFrame c dir bytes = .ok (i, rest)) :
    ∃ tail, decode c dir bytes = .ok (i, tail) ∧
      tail = ckBytes c (bytes.take (bytes.length - tail.length)) ++ rest := by
  unfold decodeFrame at h
  split at h
  · cases h
  · split at h
    · split at h
      · rename_i hck
        cases h
        exact ⟨_, by assumption, by rw [← hck]; rfl⟩
      · cases h
    · cases h

end

/-- Settles O18: the decoder inverted, first for the checksum and then for the covered bytes. -/
theorem encodeOfDecode : Obligations.EncodeOfDecode := by
  intro c dir bytes i rest h
  obtain ⟨tail, hdec, htail⟩ := decodeFrame_eq_ok h
  obtain ⟨cmd, addr, len, data, hbytes, henc, hwf⟩ := decode_eq_ok hdec
  have hcov : bytes.take (bytes.length - tail.length) = covered c cmd addr len data := by
    rw [hbytes]
    exact List.take_left' (by simp)
  rw [hcov] at htail
  exact ⟨hwf, _, henc, by rw [hbytes, htail, frameBytes, List.append_assoc]⟩

/-- Settles O19: four worked frames, computed. -/
theorem knownWordsDecode : Obligations.KnownWordsDecode := by
  unfold Obligations.KnownWordsDecode
  decide +kernel

/-- Settles O20: the test of the sync pair comes first, then that of the command. -/
theorem decodeRejectsByName : Obligations.DecodeRejectsByName := by
  intro c dir s1 s2 cmd addr len rest
  refine ⟨fun hsync => if_neg hsync, fun hr hw ha => ?_⟩
  have hnone : dataFrame c cmd addr len (rest.take len.toNat) = none := by
    simp [dataFrame, hr, hw, ha]
  simp [decode, hr, hnone]

end Sys2Proof.Machine
end

section
/-! PROOF. The step of one request (R11), reset (R41), and the stand-alone checksum operations
(R105 to R109). -/

namespace Sys2Proof.Machine

/-! ### The step -/

/-- The next request is performed where the block is idle or the host does not wait. -/
theorem step_of_request {s : State} {w : Bool} {a : HostAction} {rest : List HostRequest}
    (hl : s.cfg.legal = true) (hw : s.busy = false ∨ w = false) (hh : s.host = ⟨w, a⟩ :: rest) :
    step s = perform a { s with host := rest } := by
  have ht : takesRequest s ⟨w, a⟩ = true := by
    unfold takesRequest
    rcases hw with hb | rfl
    · rw [hb]; rfl
    · exact Bool.or_true _
  simp [step, hl, hh, ht]

theorem perform_word_ok {s : State} {dir : Direction} {bytes after : List Byte} {i : Instr}
    (h : decode s.cfg dir bytes = .ok (i, after)) : perform (.word dir bytes) s = exec i s := by
  simp only [perform, h]

theorem perform_word_error {s : State} {dir : Direction} {bytes : List Byte} {e : DecodeError}
    (h : decode s.cfg dir bytes = .error e) :
    perform (.word dir bytes) s = .refused (.undecodable e) := by
  simp only [perform, h]

/-- Settles O1: the request is taken off the queue, and `perform` says what each kind of it is. -/
theorem stepRunsTheInstruction : Obligations.StepRunsTheInstruction := by
  intro s w rest i hl hw
  refine ⟨fun hh => step_of_request hl hw hh, fun dir bytes after hh hdec => ?_,
    fun dir bytes e hh hdec => ?_, fun hw' hh => step_of_request hl hw hh,
    fun r hh => step_of_request hl hw hh, fun hh => step_of_request hl hw hh,
    fun hh => step_of_request hl hw hh⟩
  · rw [step_of_request hl hw hh]
    exact perform_word_ok (s := { s with host := rest }) hdec
  · rw [step_of_request hl hw hh]
    exact perform_word_error (s := { s with host := rest }) hdec

/-- Settles O2: the sequencer in flight moves; an idle block stays; R10 is tested first. -/
theorem stepMovesTheSequencer : Obligations.StepMovesTheSequencer := by
  intro s
  refine ⟨fun hl hb hw => ⟨fun hs => ?_, fun hs => ?_⟩, fun hl hb hh => ?_, fun hl => ?_⟩
  · rw [step_of_busy hl hb hw, seqStep_of_send hs]
  · rw [step_of_busy hl hb hw, seqStep_of_idle hs]
  · simp [step, hl, hb, hh]
  · simp [step, hl]

/-! ### Reset -/

/-- Settles O14: R41's table, read off `State.reset`. -/
theorem resetState : Obligations.ResetState :=
  ⟨rfl, rfl, rfl, rfl, rfl, rfl, rfl, rfl, rfl, rfl, rfl, rfl, rfl, rfl, rfl, rfl, rfl, rfl,
    fun _ => rfl, ⟨rfl, rfl, rfl, rfl, rfl, rfl⟩, rfl, rfl, rfl, rfl, rfl, rfl⟩

/-- Settles O15: the request is performed as `resetBlock`. -/
theorem nothingInTheBlockSurvivesReset : Obligations.NothingInTheBlockSurvivesReset :=
  fun s _ rest hl hw hh =>
    ⟨resetBlock { s with host := rest }, step_of_request hl hw hh,
      rfl, rfl, rfl, rfl, rfl, rfl, rfl, rfl, rfl, rfl⟩

/-! ### The checksum operations -/

/-- Settles O26: each operation on an idle block, by its own law. -/
theorem streamingOperations : Obligations.StreamingOperations :=
  ⟨fun _ _ _ => rfl, fun _ hb =>
    ⟨execCrcInit_next.2 ⟨hb, rfl⟩, fun reg hreg =>
      ⟨fun _ => execCrcByte_next.2 ⟨hb, reg, hreg, rfl⟩, execCrcOut_next.2 ⟨hb, reg, hreg, rfl⟩⟩⟩⟩

/-- CRC_BYTE over a sequence takes CRC_ACC over the sequence (R109). -/
theorem foldl_crcByte {s : State} (hb : s.busy = false) (bytes : List Byte) (reg : Code) :
    bytes.foldl (fun o b => andThen o (exec (.crcByte b))) (.next { s with crcAcc := some reg }) =
      .next { s with crcAcc := some (crcReg s.cfg.crcPoly reg bytes) } := by
  induction bytes generalizing reg with
  | nil => rfl
  | cons b bytes ih =>
    have hstep : exec (.crcByte b) { s with crcAcc := some reg } =
        .next { s with crcAcc := some (byteStep s.cfg.crcPoly reg b) } :=
      execCrcByte_next.2 ⟨hb, reg, rfl, rfl⟩
    rw [List.foldl_cons, andThen_next, hstep, ih, crcReg_cons]

/-- Settles O27: the stream leaves the register CHECKSUM leaves, and CRC_OUT reverses it. -/
theorem checksumIsItsStream : Obligations.ChecksumIsItsStream := by
  intro s bytes hb
  have hinit : exec .crcInit s = .next { s with crcAcc := some s.cfg.crcInit } :=
    execCrcInit_next.2 ⟨hb, rfl⟩
  have hsum : exec (.checksum bytes) s =
      .next { s with crcAcc := some (crcReg s.cfg.crcPoly s.cfg.crcInit bytes),
                     result := some (crc16 s.cfg bytes) } :=
    execChecksum_next.2 ⟨hb, rfl⟩
  refine ⟨?_, _, hsum, rfl, rfl⟩
  rw [hinit, andThen_next, foldl_crcByte hb, andThen_next, hsum]
  exact execCrcOut_next.2 ⟨hb, _, rfl, rfl⟩

/-- Settles O28: a busy block refuses, and an idle one for want of a value (R108). -/
theorem crcBeforeInitRefused : Obligations.CrcBeforeInitRefused := by
  intro s h
  cases hb : s.busy with
  | true => exact ⟨fun _ => ⟨_, if_pos hb⟩, _, if_pos hb⟩
  | false =>
    refine ⟨fun b => ⟨.noValue .crcAcc, ?_⟩, .noValue .crcAcc, ?_⟩
    · simp [exec, execCrcByte, hb, h]
    · simp [exec, execCrcOut, hb, h]

end Sys2Proof.Machine
end

section
/-! PROOF. The start of an operation on the link: admitted where its checks hold (R120, R121, R141,
R251) and refused otherwise, with the two frame kinds SEND carries (R170, R172). -/

namespace Sys2Proof.Machine

/-! ### An idle block -/

theorem txState_of_idle {s : State} (h : s.busy = false) : s.txState = .idle :=
  have ⟨htx, _⟩ := State.busy_eq_false.1 h
  htx

theorem rxState_of_idle {s : State} (h : s.busy = false) : s.rxState = .idle :=
  have ⟨_, hrx⟩ := State.busy_eq_false.1 h
  hrx

/-! ### SEND -/

theorem wfCommand_iff {c : Config} {cmd : Byte} :
    wfCommand c cmd = true ↔ cmd = c.cmdRead ∨ cmd = c.cmdWrite ∨ cmd = c.cmdAngleTlm := by
  simp [wfCommand, or_assoc]

theorem wfShape_iff {c : Config} {cmd len ndata : Byte} :
    wfShape c cmd len ndata = true ↔
      len.toNat ≤ c.maxLen ∧ (ndata = len ∨ (cmd = c.cmdRead ∧ ndata = 0)) := by
  simp [wfShape]

/-- The statements' premise is the check SEND makes. -/
theorem sendAdmitted_iff {s : State} {f : TxOperands} : SendAdmitted s f ↔ sendCheck s = .ok f := by
  rw [sendCheck_eq_ok, txOperands_eq_ok, Buffer.readRange_eq_some, wfCommand_iff, wfShape_iff]
  unfold SendAdmitted
  tauto

theorem execSend_of_check {s : State} {f : TxOperands} (h : sendCheck s = .ok f) :
    execSend s = .next (startSend f.ndata.toNat s) :=
  execSend_next.2 ⟨f, h, rfl⟩

/-- The state a SEND starts in, where the statements take it from `exec`. -/
theorem eq_startSend_of_exec {s t : State} {f : TxOperands} (h : SendAdmitted s f)
    (hexec : exec .send s = .next t) : t = startSend f.ndata.toNat s :=
  Host.Outcome.next.inj (hexec.symm.trans (execSend_of_check (sendAdmitted_iff.1 h)))

theorem execSend_refused {s : State} (h : ∀ f, sendCheck s ≠ .ok f) :
    ∃ r, execSend s = .refused r := by
  unfold execSend
  cases hc : sendCheck s with
  | error r => exact ⟨r, rfl⟩
  | ok f => exact absurd hc (h f)

/-- The last check to be made (R121): the shape. -/
theorem execSend_wfShape {s : State} {f : TxOperands} (hl : s.cfg.legal = true)
    (ho : s.linkOpen = true) (hb : s.busy = false) (hf : txOperands s = .ok f)
    (hc : wfCommand s.cfg f.cmd = true) (hs : wfShape s.cfg f.cmd f.len f.ndata = false) :
    execSend s = .refused .wfShape := by
  simp [execSend, sendCheck, linkReady_eq_ok.2 ⟨hl, ho, hb⟩, hf, hc, hs]

/-- Settles O30: the premise is the check, and the start is R123's. -/
theorem sendStarts : Obligations.SendStarts :=
  fun _ _ h => execSend_of_check (sendAdmitted_iff.1 h)

/-- Settles O31: the check fails for every choice of operands, whichever of its tests fails. -/
theorem sendRefusedOtherwise : Obligations.SendRefusedOtherwise :=
  fun _ h => execSend_refused fun f hf => h ⟨f, sendAdmitted_iff.2 hf⟩

/-! ### RECV -/

theorem recvAdmitted_iff {s : State} : RecvAdmitted s ↔ recvCheck s = .ok () :=
  recvCheck_eq_ok.symm

theorem execRecv_of_check {s : State} (h : recvCheck s = .ok ()) :
    execRecv s = .next (startRecv s) :=
  execRecv_next.2 ⟨h, rfl⟩

/-- The state a RECV starts in, where the statements take it from `exec`. -/
theorem eq_startRecv_of_exec {s t : State} (h : RecvAdmitted s) (hexec : exec .recv s = .next t) :
    t = startRecv s :=
  Host.Outcome.next.inj (hexec.symm.trans (execRecv_of_check (recvAdmitted_iff.1 h)))

theorem execRecv_refused {s : State} (h : recvCheck s ≠ .ok ()) : ∃ r, execRecv s = .refused r := by
  unfold execRecv
  cases hc : recvCheck s with
  | error r => exact ⟨r, rfl⟩
  | ok u => exact absurd hc h

/-- Settles O35: the premise is the check, and the start is R142's. -/
theorem recvStarts : Obligations.RecvStarts :=
  fun _ h => execRecv_of_check (recvAdmitted_iff.1 h)

/-- Settles O36: the check fails, whichever of its tests fails. -/
theorem recvRefusedOtherwise : Obligations.RecvRefusedOtherwise :=
  fun _ h => execRecv_refused fun hc => h (recvAdmitted_iff.2 hc)

/-! ### READ_REQ and WRITE -/

theorem toNat_ofNat_length {data : List Byte} (h : data.length ≤ 255) :
    (BitVec.ofNat 8 data.length).toNat = data.length := by
  rw [BitVec.toNat_ofNat]; omega

/-- What SEND reads of the operands just written (R86). -/
theorem txOperands_loadTx {cmd addr len : Byte} {data : List Byte} {s : State}
    (h : data.length ≤ 255) :
    txOperands (loadTx cmd addr len data s) =
      .ok ⟨cmd, addr, len, BitVec.ofNat 8 data.length, data⟩ := by
  refine txOperands_eq_ok.2 ⟨rfl, rfl, rfl, rfl, ?_⟩
  rw [toNat_ofNat_length h]
  exact Buffer.readRange_writeFrom s.txData data

/-- SEND's checks on operands just written, in either shape of R121. -/
theorem sendCheck_loadTx {cmd addr len : Byte} {data : List Byte} {s : State}
    (hl : s.cfg.legal = true) (ho : s.linkOpen = true) (hb : s.busy = false)
    (hn : data.length ≤ 255) (hc : wfCommand s.cfg cmd = true)
    (hs : wfShape s.cfg cmd len (BitVec.ofNat 8 data.length) = true) :
    sendCheck (loadTx cmd addr len data s) =
      .ok ⟨cmd, addr, len, BitVec.ofNat 8 data.length, data⟩ :=
  sendCheck_eq_ok.2 ⟨hl, ho, hb, txOperands_loadTx hn, hc, hs⟩

/-- LENGTH past MAX_LEN is refused (log 4). -/
theorem execSend_loadTx_long {cmd addr len : Byte} {data : List Byte} {s : State}
    (hl : s.cfg.legal = true) (ho : s.linkOpen = true) (hb : s.busy = false)
    (hn : data.length ≤ 255) (hc : wfCommand s.cfg cmd = true) (hlen : s.cfg.maxLen < len.toNat) :
    execSend (loadTx cmd addr len data s) = .refused .wfShape := by
  refine execSend_wfShape hl ho hb (txOperands_loadTx hn) hc (Bool.eq_false_iff.2 fun hs => ?_)
  have hle : len.toNat ≤ s.cfg.maxLen := (wfShape_iff.1 hs).1
  omega

theorem execReadReq_of_idle {addr len : Byte} {s : State} (hb : s.busy = false) :
    execReadReq addr len s = execSend (loadTx s.cfg.cmdRead addr len [] s) := by
  simp [execReadReq, hb]

theorem execWrite_of_idle {addr len : Byte} {data : List Byte} {s : State} (hb : s.busy = false)
    (hd : data.length = len.toNat) :
    execWrite addr len data s = execSend (loadTx s.cfg.cmdWrite addr len data s) := by
  simp [execWrite, hb, dataFits_iff.2 hd]

theorem sendCheck_readReq {addr len : Byte} {s : State} (hl : s.cfg.legal = true)
    (ho : s.linkOpen = true) (hb : s.busy = false) (hlen : len.toNat ≤ s.cfg.maxLen) :
    sendCheck (loadTx s.cfg.cmdRead addr len [] s) = .ok ⟨s.cfg.cmdRead, addr, len, 0, []⟩ :=
  sendCheck_loadTx hl ho hb (Nat.zero_le 255) (wfCommand_iff.2 (.inl rfl))
    (wfShape_iff.2 ⟨hlen, .inr ⟨rfl, rfl⟩⟩)

theorem sendCheck_write {addr len : Byte} {data : List Byte} {s : State} (hl : s.cfg.legal = true)
    (ho : s.linkOpen = true) (hb : s.busy = false) (hd : data.length = len.toNat)
    (hlen : len.toNat ≤ s.cfg.maxLen) :
    sendCheck (loadTx s.cfg.cmdWrite addr len data s) =
      .ok ⟨s.cfg.cmdWrite, addr, len, len, data⟩ := by
  have hcount : BitVec.ofNat 8 data.length = len := by
    rw [hd, BitVec.ofNat_toNat, BitVec.setWidth_eq]
  have hcheck := sendCheck_loadTx (addr := addr) (len := len) hl ho hb (data := data) (by omega)
    (wfCommand_iff.2 (.inr (.inl rfl))) (wfShape_iff.2 ⟨hlen, .inl hcount⟩)
  rwa [hcount] at hcheck

/-- A READ_REQ starts the SEND that carries it (R170). -/
theorem execReadReq_starts {addr len : Byte} {s : State} (hl : s.cfg.legal = true)
    (ho : s.linkOpen = true) (hb : s.busy = false) (hlen : len.toNat ≤ s.cfg.maxLen) :
    execReadReq addr len s = .next (startSend 0 (loadTx s.cfg.cmdRead addr len [] s)) := by
  rw [execReadReq_of_idle hb]
  exact execSend_of_check (sendCheck_readReq hl ho hb hlen)

/-- A WRITE starts the SEND that carries it (R172). -/
theorem execWrite_starts {addr len : Byte} {data : List Byte} {s : State} (hl : s.cfg.legal = true)
    (ho : s.linkOpen = true) (hb : s.busy = false) (hd : data.length = len.toNat)
    (hlen : len.toNat ≤ s.cfg.maxLen) :
    execWrite addr len data s =
      .next (startSend len.toNat (loadTx s.cfg.cmdWrite addr len data s)) := by
  rw [execWrite_of_idle hb hd]
  exact execSend_of_check (sendCheck_write hl ho hb hd hlen)

/-- Settles O50: the operands are written, then SEND makes its checks, the last that of LENGTH. -/
theorem readReqIsItsSend : Obligations.ReadReqIsItsSend := by
  intro s addr len hl ho hb
  refine ⟨fun hlen => execReadReq_starts hl ho hb hlen, fun hlen => ?_⟩
  exact (execReadReq_of_idle hb).trans
    (execSend_loadTx_long hl ho hb (Nat.zero_le 255) (wfCommand_iff.2 (.inl rfl)) hlen)

/-- Settles O51: the operands and the data are written, then SEND makes its checks. -/
theorem writeIsItsSend : Obligations.WriteIsItsSend := by
  intro s addr len data hl ho hb
  refine ⟨fun hd hlen => ?_, fun hbad => ?_⟩
  · refine ⟨_, execWrite_starts hl ho hb hd hlen, fun i hi => ?_, fun i hi => ?_, ?_⟩
    · simp [Buffer.read_writeFrom, hi]
    · simp [Buffer.read_writeFrom, Nat.not_lt.2 hi]
    · simp only [startSend, loadTx, hd, BitVec.ofNat_toNat, BitVec.setWidth_eq]
  · by_cases hd : data.length = len.toNat
    · have hlen : s.cfg.maxLen < len.toNat := hbad.resolve_left fun h => h hd
      exact (execWrite_of_idle hb hd).trans (execSend_loadTx_long hl ho hb (by omega)
        (wfCommand_iff.2 (.inr (.inl rfl))) hlen)
    · have hfit : dataFits len data = false := Bool.eq_false_iff.2 fun h => hd (dataFits_iff.1 h)
      simp [exec, execWrite, hb, hfit]

/-- Settles O52: the two meanings are `linkArrive` of their frame. -/
theorem responseFramesArrive : Obligations.ResponseFramesArrive :=
  fun _ _ _ _ => ⟨rfl, rfl⟩

/-! ### What is refused -/

theorem execSend_refused_of_busy {s : State} (hb : s.busy = true) : ∃ r, execSend s = .refused r :=
  execSend_refused fun f hf => by
    obtain ⟨-, -, hidle, -⟩ := sendCheck_eq_ok.1 hf
    simp [hb] at hidle

theorem execRecv_refused_of_busy {s : State} (hb : s.busy = true) : ∃ r, execRecv s = .refused r :=
  execRecv_refused fun hc => by
    obtain ⟨-, -, hidle, -⟩ := recvCheck_eq_ok.1 hc
    simp [hb] at hidle

theorem execSend_refused_of_closed {s : State} (ho : s.linkOpen = false) :
    ∃ r, execSend s = .refused r :=
  execSend_refused fun f hf => by
    obtain ⟨-, hopen, -⟩ := sendCheck_eq_ok.1 hf
    simp [ho] at hopen

theorem execRecv_refused_of_closed {s : State} (ho : s.linkOpen = false) :
    ∃ r, execRecv s = .refused r :=
  execRecv_refused fun hc => by
    obtain ⟨-, hopen, -⟩ := recvCheck_eq_ok.1 hc
    simp [ho] at hopen

/-- Settles O53: each operation and each write tests BUSY. -/
theorem busyRefuses : Obligations.BusyRefuses :=
  fun _ hb =>
    ⟨execSend_refused_of_busy hb, execRecv_refused_of_busy hb, fun _ _ => if_pos hb,
      fun _ _ _ => if_pos hb, if_pos hb, fun _ => if_pos hb, if_pos hb, fun _ => if_pos hb,
      fun _ => if_pos hb⟩

/-- Settles O60: the two events test BUSY, the four operations the link. -/
theorem linkOpensAndCloses : Obligations.LinkOpensAndCloses := by
  intro s
  refine ⟨fun hb => ⟨setLink_next.2 ⟨hb, rfl⟩, setLink_next.2 ⟨hb, rfl⟩⟩,
    fun hb => ⟨if_pos hb, if_pos hb⟩,
    fun ho => ⟨execSend_refused_of_closed ho, execRecv_refused_of_closed ho,
      fun a l => ?_, fun a l d => ?_⟩⟩
  · cases hb : s.busy with
    | true => exact ⟨.busy, if_pos hb⟩
    | false =>
      obtain ⟨r, hr⟩ := execSend_refused_of_closed (s := loadTx s.cfg.cmdRead a l [] s) ho
      exact ⟨r, (execReadReq_of_idle hb).trans hr⟩
  · cases hb : s.busy with
    | true => exact ⟨.busy, if_pos hb⟩
    | false =>
      by_cases hd : d.length = l.toNat
      · obtain ⟨r, hr⟩ := execSend_refused_of_closed (s := loadTx s.cfg.cmdWrite a l d s) ho
        exact ⟨r, (execWrite_of_idle hb hd).trans hr⟩
      · have hfit : dataFits l d = false := Bool.eq_false_iff.2 fun h => hd (dataFits_iff.1 h)
        exact ⟨.wfShape, by simp [exec, execWrite, hb, hfit]⟩

end Sys2Proof.Machine
end

section
/-! PROOF. The host's accesses: what a read answers by what its register holds (R24, R41), and each
write on an idle block (R31). -/

namespace Sys2Proof.Machine

section
variable {s : State} {r : Reg}

theorem hostRead_of_value {v : Code} (hm : r.missing s.cfg.maxLen = false)
    (hr : r.hostReadable = true) (hv : s.regValue r = some v) :
    hostRead r s = .next { s with result := some v } :=
  hostRead_next.2 ⟨hm, hr, v, hv, rfl⟩

theorem hostRead_of_none (hm : r.missing s.cfg.maxLen = false) (hr : r.hostReadable = true)
    (hv : s.regValue r = none) : hostRead r s = .fault (.readNoValue r) := by
  simp [hostRead, hm, hr, hv]

theorem hostRead_of_missing (hm : r.missing s.cfg.maxLen = true) :
    hostRead r s = .fault (.noSuchElement r) :=
  if_pos hm

/-- A register without a value is never given to the host, whatever else stops the read. -/
theorem hostRead_fault (hv : s.regValue r = none) : ∃ e, hostRead r s = .fault e := by
  unfold hostRead
  rw [hv]
  split
  · exact ⟨_, rfl⟩
  · split <;> exact ⟨_, rfl⟩

end

/-- Settles O54: the write's own branch, and for TX_DATA the laws of a buffer write. -/
theorem hostWritesItsRegister : Obligations.HostWritesItsRegister := by
  intro s b any hb
  have hnot : ¬s.busy = true := by simp [hb]
  refine ⟨if_neg hnot, if_neg hnot, if_neg hnot, if_neg hnot, if_neg hnot, if_neg hnot,
    fun i hi => ?_, fun i hi => ?_⟩
  · exact ⟨{ s with txData := s.txData.write i b }, (if_neg hnot).trans (if_pos hi),
      s.txData.read_write_same i b, fun j hj => s.txData.read_write_other i j b hj, rfl⟩
  · exact (if_neg hnot).trans (if_neg (Nat.not_lt.2 hi))

theorem rxData_missing_eq_false {size i : Nat} (h : i < size) :
    (Reg.rxData i).missing size = false :=
  decide_eq_false (Nat.not_le.2 h)

theorem txData_missing_eq_false {size i : Nat} (h : i < size) :
    (Reg.txData i).missing size = false :=
  decide_eq_false (Nat.not_le.2 h)

/-- Settles O55: a result register has no value while RX_VALID = 0, and the frame's otherwise. -/
theorem resultRegistersReadOnlyWhenValid : Obligations.ResultRegistersReadOnlyWhenValid := by
  intro s
  refine ⟨fun hv => ?_, fun cmd addr len data hv hheld hlen => ?_⟩
  · have hnone : ∀ {α : Type} (o : Option α), (if s.rxValid = true then o else none) = none :=
      fun o => if_neg (by simp [hv])
    exact ⟨hostRead_fault (hnone _), hostRead_fault (hnone _), hostRead_fault (hnone _),
      fun i => hostRead_fault (hnone _)⟩
  · obtain ⟨hcmd, haddr, hlenr, hdata⟩ := hheld
    refine ⟨hostRead_of_value rfl rfl (by simp [State.regValue, hv, hcmd]),
      hostRead_of_value rfl rfl (by simp [State.regValue, hv, haddr]),
      hostRead_of_value rfl rfl (by simp [State.regValue, hv, hlenr]), fun i b hi hb => ?_,
      fun i hi => hostRead_fault ?_⟩
    · exact hostRead_of_value (rxData_missing_eq_false hi) rfl
        (by simp [State.regValue, hv, hdata.read hi, hb])
    · have hread : s.rxData.read i = none := by
        rw [hdata.2 i]
        split
        · exact List.getElem?_eq_none (by omega)
        · rfl
      simp [State.regValue, hread]

/-- EXPECT read whole (R32), computed for each of its 512 values. -/
theorem ofBool_append_setWidth (any : Bool) (c : Byte) :
    (BitVec.ofBool any ++ c).setWidth 16 =
      if any = true then 0x100 ||| c.setWidth 16 else c.setWidth 16 := by
  revert any c
  decide +kernel

/-- Settles O56: register by register, a byte register by whether it holds a value. -/
theorem hostReadsItsRegister : Obligations.HostReadsItsRegister := by
  intro s reads
  have hbyte : ∀ (r : Reg) (v : Option Byte), r.missing s.cfg.maxLen = false →
      r.hostReadable = true → s.regValue r = v.map (·.setWidth 16) → reads r v := by
    intro r v hm hr hv
    cases v with
    | none => exact hostRead_of_none hm hr hv
    | some b => exact hostRead_of_value hm hr hv
  refine ⟨hbyte _ _ rfl rfl rfl, hbyte _ _ rfl rfl rfl, hbyte _ _ rfl rfl rfl,
    hbyte _ _ rfl rfl rfl, hbyte _ _ rfl rfl rfl, fun c hc => ?_, fun hc => ?_,
    fun i hi => hbyte _ _ (txData_missing_eq_false hi) rfl rfl,
    fun i hi => hostRead_of_missing (decide_eq_true hi), rfl, rfl, ?_,
    hostRead_of_value rfl rfl rfl, ?_, hostRead_of_value rfl rfl rfl,
    hostRead_of_value rfl rfl rfl⟩
  · exact hostRead_of_value rfl rfl (by simp [State.regValue, hc, ofBool_append_setWidth])
  · exact hostRead_of_none rfl rfl (by simp [State.regValue, hc])
  · refine hostRead_of_value rfl rfl (congrArg some ?_)
    cases s.status with
    | ok => rfl
    | error e => cases e <;> rfl
  · refine hostRead_of_value rfl rfl (congrArg some ?_)
    by_cases hidle : s.txState = .idle ∧ s.rxState = .idle
    · simp [hidle, ofFlag, State.busy_eq_false.2 hidle]
    · have hb : s.busy = true := by
        rw [← Bool.not_eq_false, State.busy_eq_false]
        exact hidle
      rw [if_neg hidle, hb]
      rfl

end Sys2Proof.Machine
end

section
/-! PROOF. The unit conversions (R197, R198, R200, R201). -/

namespace Sys2Proof.Machine

theorem toNat_toBiased {v : Int} (hlo : -128 ≤ v) (hhi : v ≤ 127) :
    ((toBiased v).toNat : Int) = v + 128 := by
  rw [toBiased, if_pos (by omega), BitVec.toNat_ofInt]
  omega

theorem toBiased_ofBiased (b : Byte) : toBiased (ofBiased b) = b := by
  apply BitVec.eq_of_toNat_eq
  have hb := b.isLt
  have h := toNat_toBiased (v := ofBiased b) (by unfold ofBiased; omega) (by unfold ofBiased; omega)
  unfold ofBiased at h ⊢
  omega

theorem ofBiased_toBiased {v : Int} (hlo : -128 ≤ v) (hhi : v ≤ 127) : ofBiased (toBiased v) = v := by
  rw [ofBiased, toNat_toBiased hlo hhi]
  omega

/-- High byte first (R200). -/
theorem positionBytes_value {v : Int} (hlo : -1024 ≤ v) (hhi : v ≤ 64511) :
    ∃ hi lo, positionBytes v = [hi, lo] ∧ (hi.toNat : Int) * 256 + lo.toNat = v + 1024 := by
  refine ⟨_, _, if_pos (by omega), ?_⟩
  rw [BitVec.toNat_ofInt, BitVec.toNat_ofInt]
  omega

/-- Settles O59: the general laws above, and three literal cases computed. -/
theorem unitConversions : Obligations.UnitConversions :=
  ⟨by decide, by decide, fun b => ⟨rfl, toBiased_ofBiased b⟩, fun _ => toNat_toBiased,
    fun _ => ofBiased_toBiased, fun _ => positionBytes_value, by decide⟩

end Sys2Proof.Machine
end

section
/-! PROOF. What a move of a sequencer can change: SEND its own registers and the outbound side, RECV
its own registers and the inbound side (R125, R140). -/

namespace Sys2Proof.Machine

/-! ### A step of SEND -/

/-- `s` with what a step of SEND can change as in `t`. -/
def sendWrites (s t : State) : State :=
  { s with
    txState := t.txState, txIdx := t.txIdx, txCrc := t.txCrc, rxCrc := t.rxCrc, status := t.status
    putAnswers := t.putAnswers, linkPuts := t.linkPuts, linkOut := t.linkOut }

theorem txAccepted_eq_sendWrites (n k : Nat) (b : Byte) (s : State) :
    txAccepted n k b s = sendWrites s (txAccepted n k b s) := by
  by_cases h : k + 1 = s.txFrameLen
  · rw [txAccepted_last n b h]; rfl
  · rw [txAccepted_more n b h]; rfl

theorem txAccepted_linkOut (n k : Nat) (b : Byte) (s : State) :
    (txAccepted n k b s).linkOut = s.linkOut := by
  by_cases h : k + 1 = s.txFrameLen
  · rw [txAccepted_last n b h]; rfl
  · rw [txAccepted_more n b h]

theorem txAccepted_status (n k : Nat) (b : Byte) (s : State) :
    (txAccepted n k b s).status = s.status ∨ (txAccepted n k b s).txState = .idle := by
  by_cases h : k + 1 = s.txFrameLen
  · rw [txAccepted_last n b h]; exact .inr rfl
  · rw [txAccepted_more n b h]; exact .inl rfl

theorem txStep_eq_sendWrites {s t : State} (h : txStep s = .next t) : t = sendWrites s t := by
  obtain ⟨-, rfl⟩ | ⟨-, n, b, -, -, ⟨-, rfl⟩ | ⟨-, rfl⟩⟩ := txStep_next h
  · rfl
  · exact txAccepted_eq_sendWrites n.toNat s.txIdx b (putAccepted b s)
  · rfl

/-- Settles O34: no field named there is among SEND's writes. -/
theorem sendStepFrame : Obligations.SendStepFrame := by
  intro s t h
  rw [txStep_eq_sendWrites h]
  exact ⟨rfl, rfl, rfl, rfl, rfl, rfl, rfl, rfl, fun _ => rfl, fun _ => rfl, rfl, rfl, rfl, rfl, rfl,
    rfl, rfl, rfl, rfl, rfl, rfl, rfl, rfl, rfl, rfl⟩

/-- A step of SEND puts at most one byte on the link (R125). -/
theorem txStep_linkOut {s t : State} (h : txStep s = .next t) :
    t.linkOut = s.linkOut ∨ ∃ b, t.linkOut = s.linkOut ++ [b] := by
  obtain ⟨-, rfl⟩ | ⟨-, n, b, -, -, ⟨-, rfl⟩ | ⟨-, rfl⟩⟩ := txStep_next h
  · exact .inl rfl
  · exact .inr ⟨b, txAccepted_linkOut n.toNat s.txIdx b (putAccepted b s)⟩
  · exact .inl rfl

/-- A step of SEND writes STATUS only where it ends the operation (R29). -/
theorem txStep_status {s t : State} (h : txStep s = .next t) :
    t.status = s.status ∨ t.txState = .idle := by
  obtain ⟨-, rfl⟩ | ⟨-, n, b, -, -, ⟨-, rfl⟩ | ⟨-, rfl⟩⟩ := txStep_next h
  · exact .inr rfl
  · exact txAccepted_status n.toNat s.txIdx b (putAccepted b s)
  · exact .inr rfl

/-! ### A step of RECV -/

/-- `s` with what a step of RECV can change as in `t`. -/
def recvWrites (s t : State) : State :=
  { s with
    rxCmd := t.rxCmd, rxAddr := t.rxAddr, rxLen := t.rxLen, rxData := t.rxData, txCrc := t.txCrc
    rxState := t.rxState, rxIdx := t.rxIdx, rxCrc := t.rxCrc, rxCkLo := t.rxCkLo, rxCkHi := t.rxCkHi
    rxValid := t.rxValid, status := t.status, scanCnt := t.scanCnt, sawSync1 := t.sawSync1
    linkIn := t.linkIn, linkGets := t.linkGets }

theorem searchStep_eq_recvWrites (a : GetAnswer) (s : State) :
    searchStep a s = recvWrites s (searchStep a s) := by
  cases a with
  | timeout => rfl
  | byte b =>
    by_cases h : s.sawSync1 = true ∧ b = s.cfg.sync2
    · obtain ⟨hs, rfl⟩ := h
      rw [searchStep_match hs]; rfl
    · rw [searchStep_other h]; rfl

/-- The third header byte is the one at any index past 1 (R150). -/
theorem headerStep_of_two_le {s : State} (b : Byte) (h : 2 ≤ s.rxIdx) :
    headerStep b s = { s with
      rxCrc := s.rxCrc.map (byteStep s.cfg.crcPoly · b), rxLen := some b, rxIdx := 0
      rxState := if 0 < b.toNat then .data else .ck } :=
  (if_neg (by omega)).trans (if_neg (by omega))

theorem headerStep_eq_recvWrites (b : Byte) (s : State) :
    headerStep b s = recvWrites s (headerStep b s) := by
  by_cases h0 : s.rxIdx = 0
  · rw [headerStep_cmd b h0]; rfl
  · by_cases h1 : s.rxIdx = 1
    · rw [headerStep_addr b h1]; rfl
    · rw [headerStep_of_two_le b (by omega)]; rfl

/-- Both branches of a data byte (R152): only the index and the state ask whether it is the last. -/
theorem dataStep_eq (len b : Byte) (s : State) :
    dataStep len b s = { s with
      rxCrc := s.rxCrc.map (byteStep s.cfg.crcPoly · b)
      rxData := s.rxData.store s.cfg.maxLen s.rxIdx b
      rxIdx := if s.rxIdx + 1 = len.toNat then 0 else s.rxIdx + 1
      rxState := if s.rxIdx + 1 = len.toNat then .ck else s.rxState } := by
  by_cases h : s.rxIdx + 1 = len.toNat
  · rw [dataStep_last b h, if_pos h, if_pos h]
  · rw [dataStep_more b h, if_neg h, if_neg h]

theorem dataStep_eq_recvWrites (len b : Byte) (s : State) :
    dataStep len b s = recvWrites s (dataStep len b s) := by
  rw [dataStep_eq]; rfl

/-- The tests end in one of the two errors or in success (R154 to R157). -/
theorem finishRecv_cases (crc : Code) (lo hi cmd expected : Byte) (s : State) :
    (∃ e, finishRecv crc lo hi cmd expected s = raise .recv e s) ∨
    (checksumOk crc lo hi = true ∧ finishRecv crc lo hi cmd expected s = completeRecv s) := by
  cases hck : checksumOk crc lo hi with
  | false => exact .inl ⟨_, finishRecv_corrupt cmd expected s hck⟩
  | true =>
    cases hc : commandExpected s.expectAny expected cmd with
    | false => exact .inl ⟨_, finishRecv_mismatch hck hc⟩
    | true => exact .inr ⟨rfl, finishRecv_ok hck hc⟩

/-- A checksum byte is stored (R153), or it ends RECV in an error, or, with the two bytes right, in
success. -/
theorem ckStep_next {b : Byte} {s t : State} (h : ckStep b s = .next t) :
    (s.rxIdx = 0 ∧ t = { s with rxCkLo := some b, rxIdx := 1 }) ∨
    (s.rxIdx ≠ 0 ∧
      ((∃ e, t = raise .recv e { s with rxCkHi := some b, rxIdx := 2 }) ∨
       (∃ crc lo, s.rxCrc = some crc ∧ s.rxCkLo = some lo ∧ checksumOk crc lo b = true ∧
          t = completeRecv { s with rxCkHi := some b, rxIdx := 2 }))) := by
  by_cases h0 : s.rxIdx = 0
  · rw [ckStep_first b h0] at h
    cases h
    exact .inl ⟨h0, rfl⟩
  · refine .inr ⟨h0, ?_⟩
    rw [ckStep, if_neg h0] at h
    dsimp only at h
    split at h
    · rename_i crc lo cmd hcrc hlo hcmd
      split at h
      · cases h
      · cases h
        obtain ⟨e, he⟩ | ⟨hck, hc⟩ := finishRecv_cases crc lo b cmd (s.expectCmd.getD 0)
          { s with rxCkHi := some b, rxIdx := 2 }
        · exact .inl ⟨e, he⟩
        · exact .inr ⟨crc, lo, hcrc, hlo, hck, hc⟩
    · cases h

theorem ckStep_eq_recvWrites {b : Byte} {s t : State} (h : ckStep b s = .next t) :
    t = recvWrites s t := by
  obtain ⟨-, rfl⟩ | ⟨-, ⟨e, rfl⟩ | ⟨crc, lo, -, -, -, rfl⟩⟩ := ckStep_next h <;> rfl

theorem rxStep_eq_recvWrites {s t : State} (h : rxStep s = .next t) : t = recvWrites s t := by
  obtain ⟨-, rfl⟩ | ⟨-, -, rfl⟩ | ⟨-, -, rfl⟩ | ⟨-, -, -, rfl⟩ |
    ⟨b, -, ⟨-, rfl⟩ | ⟨len, -, -, rfl⟩ | ⟨-, hck⟩⟩ := rxStep_next h
  · rfl
  · rfl
  · exact searchStep_eq_recvWrites _ (afterGet s)
  · rfl
  · exact headerStep_eq_recvWrites b (afterGet s)
  · exact dataStep_eq_recvWrites len b (afterGet s)
  · exact ckStep_eq_recvWrites (s := afterGet s) hck

/-- Settles O45: no field named there is among RECV's writes. -/
theorem recvStepFrame : Obligations.RecvStepFrame := by
  intro s t h
  rw [rxStep_eq_recvWrites h]
  exact ⟨rfl, rfl, rfl, rfl, fun _ => rfl, rfl, rfl, rfl, rfl, rfl, rfl, rfl, rfl, rfl, rfl, rfl, rfl,
    rfl⟩

/-! ### A move of the sequencer in flight -/

theorem seqStep_next {s t : State} (h : seqStep s = .next t) :
    (s.txState = .send ∧ txStep s = .next t) ∨ (s.txState = .idle ∧ rxStep s = .next t) := by
  cases hs : s.txState with
  | send => exact .inl ⟨rfl, by rwa [seqStep_of_send hs] at h⟩
  | idle => exact .inr ⟨rfl, by rwa [seqStep_of_idle hs] at h⟩

theorem seqStep_keeps_cfg_host {s t : State} (h : seqStep s = .next t) :
    t.cfg = s.cfg ∧ t.host = s.host := by
  obtain ⟨-, ht⟩ | ⟨-, ht⟩ := seqStep_next h
  · rw [txStep_eq_sendWrites ht]; exact ⟨rfl, rfl⟩
  · rw [rxStep_eq_recvWrites ht]; exact ⟨rfl, rfl⟩

end Sys2Proof.Machine
end

section
/-! PROOF. One move of RECV for a known answer of the link: the search (R144 to R149), the header
(R150), the data (R152), the checksum and the command test (R153 to R157), a timeout (R158). -/

namespace Sys2Proof.Machine

/-- The state in which RECV sees a listed answer: the rest of the stream, one more `LinkGet`. -/
def took (rest : List GetAnswer) (s : State) : State :=
  { s with linkIn := rest, linkGets := s.linkGets + 1 }

section
variable {s : State} {a : GetAnswer} {b len : Byte} {rest : List GetAnswer}

theorem nextGet_of_linkIn (h : s.linkIn = a :: rest) : nextGet s = a := by
  simp [nextGet, h]

theorem afterGet_of_linkIn (h : s.linkIn = a :: rest) : afterGet s = took rest s := by
  simp [afterGet, took, h]

theorem seqStep_search (ht : s.txState = .idle) (hr : s.rxState = .search)
    (hc : s.scanCnt < s.cfg.syncCap) (h : s.linkIn = a :: rest) :
    seqStep s = .next (searchStep a (took rest s)) := by
  rw [seqStep_of_idle ht, rxStep_search hr hc, nextGet_of_linkIn h, afterGet_of_linkIn h]

theorem seqStep_cap (ht : s.txState = .idle) (hr : s.rxState = .search)
    (hc : s.cfg.syncCap ≤ s.scanCnt) :
    seqStep s = .next (raise .recv .transportTimeout s) := by
  rw [seqStep_of_idle ht, rxStep_cap hr hc]

theorem seqStep_header (ht : s.txState = .idle) (hr : s.rxState = .header)
    (h : s.linkIn = .byte b :: rest) : seqStep s = .next (headerStep b (took rest s)) := by
  rw [seqStep_of_idle ht, rxStep_header hr, nextGet_of_linkIn h, afterGet_of_linkIn h]
  rfl

theorem seqStep_data (ht : s.txState = .idle) (hr : s.rxState = .data) (hl : s.rxLen = some len)
    (h : s.linkIn = .byte b :: rest) : seqStep s = .next (dataStep len b (took rest s)) := by
  rw [seqStep_of_idle ht, rxStep_data hr hl, nextGet_of_linkIn h, afterGet_of_linkIn h]
  rfl

theorem seqStep_ck (ht : s.txState = .idle) (hr : s.rxState = .ck)
    (h : s.linkIn = .byte b :: rest) : seqStep s = ckStep b (took rest s) := by
  rw [seqStep_of_idle ht, rxStep_ck hr, nextGet_of_linkIn h, afterGet_of_linkIn h]
  rfl

/-- Once the sync pair is found a timeout ends RECV in every phase (R158). -/
theorem seqStep_timeout (ht : s.txState = .idle)
    (hr : s.rxState = .header ∨ (s.rxState = .data ∧ s.rxLen = some len) ∨ s.rxState = .ck)
    (h : s.linkIn = .timeout :: rest) :
    seqStep s = .next (raise .recv .transportTimeout (took rest s)) := by
  rw [seqStep_of_idle ht]
  obtain hr | ⟨hr, hl⟩ | hr := hr
  · rw [rxStep_header hr, nextGet_of_linkIn h, afterGet_of_linkIn h]; rfl
  · rw [rxStep_data hr hl, nextGet_of_linkIn h, afterGet_of_linkIn h]; rfl
  · rw [rxStep_ck hr, nextGet_of_linkIn h, afterGet_of_linkIn h]; rfl

end

theorem noResult_raiseRecv (e : ErrorKind) (s : State) : (raise .recv e s).NoResult :=
  ⟨rfl, rfl, rfl, rfl, rfl, rfl⟩

theorem timedOut_raiseRecv (rest : List GetAnswer) (s : State) :
    (raise .recv .transportTimeout (took rest s)).TimedOut rest :=
  ⟨rfl, rfl, rfl, rfl, noResult_raiseRecv _ _, rfl⟩

/-- Settles O37: the answer decides which of the three equations of `searchStep` applies. -/
theorem searchAttempt : Obligations.SearchAttempt := by
  intro s a rest ht hr hc hin s1
  have hstep := seqStep_search ht hr hc hin
  refine ⟨fun ha => ?_, fun b ha hsaw hb => ?_, fun b ha hno => ?_⟩
  · subst ha
    exact hstep
  · subst ha hb
    exact hstep.trans (congrArg _ (searchStep_match (s := took rest s) hsaw))
  · subst ha
    exact hstep.trans (congrArg _ (searchStep_other (s := took rest s) hno))

theorem toNat_pos_iff {b : Byte} : 0 < b.toNat ↔ b ≠ 0 := by
  rw [Nat.pos_iff_ne_zero, ne_eq, ne_eq, BitVec.toNat_eq]
  rfl

/-- The phase after the header, asked of the byte or of its value (R150). -/
theorem phase_after_header (b : Byte) :
    (if 0 < b.toNat then RxState.data else RxState.ck) = if b = 0 then .ck else .data := by
  rw [ite_cond_congr (propext toNat_pos_iff), ite_not]

/-- Settles O40: the index decides which of the three equations of `headerStep` applies. -/
theorem headerByte : Obligations.HeaderByte := by
  intro s b rest ht hr
  refine ⟨fun hin => ⟨_, seqStep_timeout (len := 0) ht (.inl hr) hin, timedOut_raiseRecv rest s⟩,
    fun hin => ?_⟩
  have hstep := seqStep_header ht hr hin
  refine ⟨fun h0 => ?_, fun h1 => ?_, fun h2 => ?_⟩
  · exact hstep.trans (congrArg _ (headerStep_cmd (s := took rest s) b h0))
  · exact hstep.trans (congrArg _ (headerStep_addr (s := took rest s) b h1))
  · rw [hstep, headerStep_len (s := took rest s) b h2, phase_after_header]
    rfl

/-- Settles O41: by the equation of a data byte and the laws of a store. -/
theorem dataByte : Obligations.DataByte := by
  intro s len b rest ht hr hl hi
  refine ⟨fun hin => ⟨_, seqStep_timeout ht (.inr (.inl ⟨hr, hl⟩)) hin, timedOut_raiseRecv rest s⟩,
    fun hin => ?_⟩
  have hread := Buffer.read_store s.cfg.maxLen s.rxData s.rxIdx
  have hstep := (seqStep_data ht hr hl hin).trans (congrArg _ (dataStep_eq len b (took rest s)))
  refine ⟨_, hstep, fun hlt => ?_, fun i hi' => ?_, rfl, ?_, rfl⟩
  · exact (hread s.rxIdx b).trans (if_pos ⟨rfl, hlt⟩)
  · exact (hread i b).trans (if_neg (by omega))
  · rw [← hr]; rfl

/-- The state in which RECV makes its tests, the second checksum byte stored (R153). -/
def tookCkHi (b : Byte) (rest : List GetAnswer) (s : State) : State :=
  { s with linkIn := rest, linkGets := s.linkGets + 1, rxCkHi := some b, rxIdx := 2 }

/-- The second checksum byte, with the registers it needs (R153 to R157). -/
theorem seqStep_ck_second {s : State} {crc : Code} {lo b cmd : Byte} {rest : List GetAnswer}
    (ht : s.txState = .idle) (hr : s.rxState = .ck) (hin : s.linkIn = .byte b :: rest)
    (hi : s.rxIdx = 1) (hcrc : s.rxCrc = some crc) (hlo : s.rxCkLo = some lo)
    (hcmd : s.rxCmd = some cmd) (he : s.ExpectSet) :
    seqStep s = .next (finishRecv crc lo b cmd (s.expectCmd.getD 0) (tookCkHi b rest s)) := by
  have hne : (took rest s).rxIdx ≠ 0 := by
    change s.rxIdx ≠ 0
    omega
  rw [seqStep_ck ht hr hin]
  exact ckStep_second b hne hcrc hlo hcmd he

theorem checksumOk_iff {crc : Code} {lo hi : Byte} :
    checksumOk crc lo hi = true ↔ lo = lo8 (rev16 crc) ∧ hi = hi8 (rev16 crc) := by
  simp [checksumOk]

/-- Settles O42: the first byte is stored, the second fails the test of both. -/
theorem checksumBytes : Obligations.ChecksumBytes := by
  intro s b rest ht hr hin
  refine ⟨fun h0 => ?_, fun crc lo h1 hcrc hlo hcmd he hwrong => ?_⟩
  · rw [seqStep_ck ht hr hin]
    exact ckStep_first (s := took rest s) b h0
  · obtain ⟨cmd, hcmd⟩ := Option.isSome_iff_exists.1 hcmd
    have hbad : checksumOk crc lo b = false :=
      Bool.eq_false_iff.2 fun h => hwrong (checksumOk_iff.1 h)
    have hstep := seqStep_ck_second ht hr hin h1 hcrc hlo hcmd he
    rw [finishRecv_corrupt _ _ _ hbad] at hstep
    exact ⟨_, hstep, rfl, rfl, rfl, rfl, noResult_raiseRecv _ _, rfl, rfl⟩

theorem expectSet_of_expects {s : State} {cmd : Byte} (h : s.Expects cmd) : s.ExpectSet :=
  h.imp id fun hc => by rw [hc]; rfl

/-- The test of R156 as RECV makes it, on EXPECT as the host wrote it. -/
theorem commandExpected_iff {s : State} {cmd : Byte} (he : s.ExpectSet) :
    commandExpected s.expectAny (s.expectCmd.getD 0) cmd = true ↔ s.Expects cmd := by
  unfold commandExpected State.Expects
  obtain hany | hsome := he
  · simp [hany]
  · obtain ⟨e, he⟩ := Option.isSome_iff_exists.1 hsome
    rw [he, Option.getD_some, Bool.or_eq_true, beq_iff_eq, Option.some_inj, eq_comm (a := cmd)]

/-- Settles O43: the checksum test passes, and EXPECT decides. -/
theorem commandTestAndSuccess : Obligations.CommandTestAndSuccess := by
  intro s cmd crc rest ht hr hi hcrc hcmd hlo hin
  have hok := checksumOk_own crc
  refine ⟨fun hexp => ?_, fun e hany hsome hne => ?_⟩
  · have he := expectSet_of_expects hexp
    rw [seqStep_ck_second ht hr hin hi hcrc hlo hcmd he]
    exact congrArg _ (finishRecv_ok hok ((commandExpected_iff he).2 hexp))
  · have he : s.ExpectSet := .inr (by rw [hsome]; rfl)
    have hno : commandExpected s.expectAny (s.expectCmd.getD 0) cmd = false := by
      simp [commandExpected, hany, hsome, hne]
    have hstep := seqStep_ck_second ht hr hin hi hcrc hlo hcmd he
    rw [finishRecv_mismatch (s := tookCkHi _ rest s) hok hno] at hstep
    exact ⟨_, hstep, rfl, rfl, rfl, rfl, noResult_raiseRecv _ _, rfl⟩

/-- Settles O44: one equation for the three phases, and what `raise` leaves. -/
theorem timeoutAfterSync : Obligations.TimeoutAfterSync := by
  intro s len rest ht hr hin
  have hphase : s.rxState = .header ∨ (s.rxState = .data ∧ s.rxLen = some len) ∨ s.rxState = .ck :=
    hr.imp id (Or.imp (fun ⟨hd, hl, _⟩ => ⟨hd, hl⟩) id)
  exact ⟨_, seqStep_timeout ht hphase hin, timedOut_raiseRecv rest s,
    rfl, rfl, rfl, rfl, rfl, rfl, rfl, rfl, rfl, fun _ => rfl, rfl⟩

end Sys2Proof.Machine
end

section
/-! PROOF. What a request can do to the block, said once (R11), and what follows of every step: the
parameters, the two sides of the link (R38, R125). -/

namespace Sys2Proof.Machine

/-- `s` with what an access, a checksum operation or an event of the link can change as in `t`. -/
def hostWrites (s t : State) : State :=
  { s with
    txCmd := t.txCmd, txAddr := t.txAddr, txLen := t.txLen, txNData := t.txNData, txData := t.txData
    crcAcc := t.crcAcc, expectAny := t.expectAny, expectCmd := t.expectCmd, linkOpen := t.linkOpen
    result := t.result }

/-- An idle block goes from `s` to `t` by such a change, which keeps the form of TX_DATA. -/
structure IdleUpdate (s t : State) : Prop where
  idle : s.busy = false
  eq : t = hostWrites s t
  wf : s.txData.wf s.cfg.maxLen = true → t.txData.wf s.cfg.maxLen = true

/-- What performing the request `a` can answer. -/
inductive Performed (a : HostAction) (s : State) : State → Prop where
  | arrive (bytes : List Byte) : Performed a s (linkArrive bytes s)
  | read (v : Option Code) : Performed a s { s with result := v }
  | update {t : State} (h : IdleUpdate s t) : Performed a s t
  | send {u : State} {f : TxOperands} (hu : IdleUpdate s u) (hf : sendCheck u = .ok f) :
      Performed a s (startSend f.ndata.toNat u)
  | recv (h : recvCheck s = .ok ()) : Performed a s (startRecv s)
  | reset (h : a = .reset) : Performed a s (resetBlock s)

theorem IdleUpdate.refl {s : State} (h : s.busy = false) : IdleUpdate s s := ⟨h, rfl, id⟩

theorem IdleUpdate.loadTx {s : State} {cmd addr len : Byte} {data : List Byte} (h : s.busy = false)
    (hlen : data.length ≤ s.cfg.maxLen) : IdleUpdate s (loadTx cmd addr len data s) :=
  ⟨h, rfl, fun hwf => Buffer.wf_writeFrom hwf (by omega)⟩

/-- A WRITE that starts has no more data than TX_DATA has elements (R8, log 4). -/
theorem length_le_of_sendCheck_loadTx {s : State} {f : TxOperands} {cmd addr len : Byte}
    {data : List Byte} (hd : data.length = len.toNat)
    (hf : sendCheck (loadTx cmd addr len data s) = .ok f) : data.length ≤ s.cfg.maxLen := by
  obtain ⟨-, -, -, hops, -, hshape⟩ := sendCheck_eq_ok.1 hf
  obtain ⟨-, -, hlen, -⟩ := txOperands_eq_ok.1 hops
  obtain rfl : len = f.len := Option.some.inj hlen
  exact hd ▸ (wfShape_iff.1 hshape).1

theorem performed_of_exec {a : HostAction} {i : Instr} {s t : State} (h : exec i s = .next t) :
    Performed a s t := by
  cases i with
  | readReq addr len =>
    obtain ⟨hb, h⟩ := execReadReq_next.1 h
    obtain ⟨f, hf, rfl⟩ := execSend_next.1 h
    exact .send (.loadTx hb (Nat.zero_le _)) hf
  | write addr len data =>
    obtain ⟨hb, hd, h⟩ := execWrite_next.1 h
    obtain ⟨f, hf, rfl⟩ := execSend_next.1 h
    exact .send (.loadTx hb (length_le_of_sendCheck_loadTx (dataFits_iff.1 hd) hf)) hf
  | readAck addr len data =>
    cases h
    exact .arrive _
  | angleTlm addr len data =>
    cases h
    exact .arrive _
  | crcInit =>
    obtain ⟨hb, rfl⟩ := execCrcInit_next.1 h
    exact .update ⟨hb, rfl, id⟩
  | crcByte b =>
    obtain ⟨hb, reg, -, rfl⟩ := execCrcByte_next.1 h
    exact .update ⟨hb, rfl, id⟩
  | crcOut =>
    obtain ⟨hb, reg, -, rfl⟩ := execCrcOut_next.1 h
    exact .update ⟨hb, rfl, id⟩
  | checksum bytes =>
    obtain ⟨hb, rfl⟩ := execChecksum_next.1 h
    exact .update ⟨hb, rfl, id⟩
  | send =>
    obtain ⟨f, hf, rfl⟩ := execSend_next.1 h
    obtain ⟨-, -, hb, -⟩ := sendCheck_eq_ok.1 hf
    exact .send (.refl hb) hf
  | recv =>
    obtain ⟨hc, rfl⟩ := execRecv_next.1 h
    exact .recv hc

theorem idleUpdate_of_hostWrite {w : HostWrite} {s t : State} (h : hostWrite w s = .next t) :
    IdleUpdate s t := by
  unfold hostWrite at h
  split at h
  · cases h
  · rename_i hbusy
    have hb : s.busy = false := Bool.eq_false_iff.2 hbusy
    cases w with
    | txData i b =>
      dsimp only at h
      split at h
      · cases h
        exact ⟨hb, rfl, fun hwf => Buffer.wf_write hwf ‹_›⟩
      · cases h
    | txCmd b | txAddr b | txLen b | txNData b | expect any cmd | expectAny any =>
      cases h
      exact ⟨hb, rfl, id⟩

theorem performed_of_perform {a : HostAction} {s t : State} (h : perform a s = .next t) :
    Performed a s t := by
  cases a with
  | op i => exact performed_of_exec h
  | word dir bytes =>
    cases hdec : decode s.cfg dir bytes with
    | error e => rw [perform_word_error hdec] at h; cases h
    | ok p => rw [perform_word_ok (after := p.2) hdec] at h; exact performed_of_exec h
  | write w => exact .update (idleUpdate_of_hostWrite h)
  | read r =>
    obtain ⟨-, -, v, -, rfl⟩ := hostRead_next.1 h
    exact .read _
  | openLink =>
    obtain ⟨hb, rfl⟩ := setLink_next.1 h
    exact .update ⟨hb, rfl, id⟩
  | closeLink =>
    obtain ⟨hb, rfl⟩ := setLink_next.1 h
    exact .update ⟨hb, rfl, id⟩
  | reset =>
    cases h
    exact .reset rfl

/-- What every request leaves: the parameters and the outbound side, the inbound answers and their
position, a result that was not there, and STATUS unless it is a reset. -/
structure RequestKeeps (a : HostAction) (s t : State) : Prop where
  cfg : t.cfg = s.cfg
  linkOut : t.linkOut = s.linkOut
  linkGets : t.linkGets = s.linkGets
  linkIn : ∃ arrived, t.linkIn = s.linkIn ++ arrived
  rxValid : t.rxValid = true → s.rxValid = true
  status : a ≠ .reset → t.status = s.status

theorem IdleUpdate.keeps {a : HostAction} {s t : State} (h : IdleUpdate s t) :
    RequestKeeps a s t := by
  rw [h.eq]
  exact ⟨rfl, rfl, rfl, ⟨[], (List.append_nil _).symm⟩, id, fun _ => rfl⟩

theorem Performed.keeps {a : HostAction} {s t : State} (h : Performed a s t) :
    RequestKeeps a s t := by
  have hnil : ∃ arrived, s.linkIn = s.linkIn ++ arrived := ⟨[], (List.append_nil _).symm⟩
  cases h with
  | arrive bytes => exact ⟨rfl, rfl, rfl, ⟨_, rfl⟩, id, fun _ => rfl⟩
  | read v => exact ⟨rfl, rfl, rfl, hnil, id, fun _ => rfl⟩
  | update h => exact h.keeps
  | send hu hf =>
    obtain ⟨hcfg, hout, hgets, hin, hvalid, hstatus⟩ := hu.keeps (a := a)
    exact ⟨hcfg, hout, hgets, hin, hvalid, hstatus⟩
  | recv h => exact ⟨rfl, rfl, rfl, hnil, nofun, fun _ => rfl⟩
  | reset h => exact ⟨rfl, rfl, rfl, hnil, nofun, fun hne => absurd h hne⟩

/-- What a step that goes on can do. -/
inductive Stepped (s : State) : State → Prop where
  | stay : Stepped s s
  | move {t : State} (hb : s.busy = true) (h : seqStep s = .next t) : Stepped s t
  | request {t : State} (r : HostRequest) (rest : List HostRequest) (hh : s.host = r :: rest)
      (h : Performed r.act { s with host := rest } t) : Stepped s t

theorem stepped_of_step {s t : State} (h : step s = .next t) : Stepped s t := by
  obtain ⟨-, ⟨-, -, rfl⟩ | ⟨hb, hseq⟩ | ⟨r, rest, hh, -, hp⟩⟩ := step_next h
  · exact .stay
  · exact .move hb hseq
  · exact .request r rest hh (performed_of_perform hp)

/-- Settles O3: no kind of step has the parameters among its writes. -/
theorem stepKeepsTheParameters : Obligations.StepKeepsTheParameters := by
  intro s t h
  cases stepped_of_step h with
  | stay => rfl
  | move hb hseq => exact (seqStep_keeps_cfg_host hseq).1
  | request r rest hh hp => exact hp.keeps.cfg

/-- Settles O4: the one other move is SEND's, which has no inbound register among its writes. -/
theorem onlyRecvConsumesInbound : Obligations.OnlyRecvConsumesInbound := by
  intro s t h hrx
  have hnil : ∃ arrived, s.linkIn = s.linkIn ++ arrived := ⟨[], (List.append_nil _).symm⟩
  cases stepped_of_step h with
  | stay => exact ⟨rfl, hnil⟩
  | move hb hseq =>
    obtain ⟨-, ht⟩ | ⟨htx, -⟩ := seqStep_next hseq
    · rw [txStep_eq_sendWrites ht]
      exact ⟨rfl, hnil⟩
    · rw [State.busy_eq_false.2 ⟨htx, hrx⟩] at hb
      cases hb
  | request r rest hh hp => exact ⟨hp.keeps.linkGets, hp.keeps.linkIn⟩

/-- Settles O5: neither RECV nor a request has the outbound bytes among its writes. -/
theorem onlySendWritesTheLink : Obligations.OnlySendWritesTheLink := by
  intro s t h hne
  cases stepped_of_step h with
  | stay => exact absurd rfl hne
  | move hb hseq =>
    obtain ⟨hs, ht⟩ | ⟨-, ht⟩ := seqStep_next hseq
    · exact ⟨hs, (txStep_linkOut ht).resolve_left hne⟩
    · rw [rxStep_eq_recvWrites ht] at hne
      exact absurd rfl hne
  | request r rest hh hp => exact absurd hp.keeps.linkOut hne

end Sys2Proof.Machine
end

section
/-! PROOF. The serializer inside its frame: what it offers, and that it moves (R122 to R129). -/

namespace Sys2Proof.Machine

/-- SEND of these operands is in flight: what `TxInv` says in T_SEND, with the operands named. -/
structure Sending (s : State) (f : TxOperands) : Prop where
  state : s.txState = .send
  ops : txOperands s = .ok f
  cmd : wfCommand s.cfg f.cmd = true
  shape : wfShape s.cfg f.cmd f.len f.ndata = true
  frameLen : s.txFrameLen = 5 + f.ndata.toNat + 2
  idx : s.txIdx < s.txFrameLen
  crc : s.txCrc = some (crcReg s.cfg.crcPoly s.cfg.crcInit
    ((covered s.cfg f.cmd f.addr f.len f.data).take s.txIdx))

theorem txInv_of_idle {s : State} (h : s.txState = .idle) : TxInv s ↔ s.txIdx = 0 := by
  simp only [TxInv, h]

theorem txInv_of_send {s : State} (h : s.txState = .send) : TxInv s ↔ ∃ f, Sending s f := by
  simp only [TxInv, h]
  constructor
  · rintro ⟨f, hops, hcmd, hshape, hlen, hi, hcrc⟩
    exact ⟨f, h, hops, hcmd, hshape, hlen, hi, hcrc⟩
  · rintro ⟨f, -, hops, hcmd, hshape, hlen, hi, hcrc⟩
    exact ⟨f, hops, hcmd, hshape, hlen, hi, hcrc⟩

theorem txOperands_ndata {s : State} {f : TxOperands} (h : txOperands s = .ok f) :
    s.txNData = some f.ndata ∧ f.data.length = f.ndata.toNat := by
  obtain ⟨-, -, -, hn, hdata⟩ := txOperands_eq_ok.1 h
  exact ⟨hn, (Buffer.readRange_eq_some.1 hdata).1⟩

theorem sending_startSend {s : State} {f : TxOperands} (h : sendCheck s = .ok f) :
    Sending (startSend f.ndata.toNat s) f := by
  obtain ⟨-, -, -, hops, hcmd, hshape⟩ := sendCheck_eq_ok.1 h
  exact ⟨rfl, hops, hcmd, hshape, rfl, by simp, rfl⟩

section
variable {s : State} {f : TxOperands} {b : Byte}

/-- The byte SEND offers is that of the frame at its index (R122, R124). -/
theorem Sending.txByte_eq (h : Sending s f) :
    txByte s f.ndata.toNat s.txIdx = (frameBytes s.cfg f.cmd f.addr f.len f.data)[s.txIdx]? := by
  obtain ⟨-, hn⟩ := txOperands_ndata h.ops
  have hcovlen := covered_length s.cfg f.cmd f.addr f.len f.data
  have hi := h.idx
  rw [h.frameLen] at hi
  by_cases hcov : s.txIdx < 5 + f.ndata.toNat
  · rw [txByte_covered h.ops hcov, frameBytes, List.getElem?_append_left (by omega)]
  · have hcrc := h.crc
    rw [List.take_of_length_le (by omega)] at hcrc
    obtain hk | hk : s.txIdx = 5 + f.ndata.toNat ∨ s.txIdx = 6 + f.ndata.toNat := by omega
    · rw [hk, txByte_ckLo hcrc, ← hn]
      exact (frameBytes_getElem?_ckBytes s.cfg f.cmd f.addr f.len f.data 0).symm
    · rw [hk, txByte_ckHi hcrc, ← hn, show 6 + f.data.length = 5 + f.data.length + 1 by omega]
      exact (frameBytes_getElem?_ckBytes s.cfg f.cmd f.addr f.len f.data 1).symm

theorem Sending.exists_txByte (h : Sending s f) :
    ∃ b, txByte s f.ndata.toNat s.txIdx = some b := by
  obtain ⟨-, hn⟩ := txOperands_ndata h.ops
  have hi := h.idx
  rw [h.frameLen] at hi
  rw [h.txByte_eq]
  exact ⟨_, List.getElem?_eq_getElem (by rw [frameBytes_length]; omega)⟩

/-- TX_CRC after an accepted byte: a covered byte enters it, a checksum byte does not (R124). -/
theorem Sending.crc_after_byte (h : Sending s f) (hb : txByte s f.ndata.toNat s.txIdx = some b) :
    (if s.txIdx < 5 + f.ndata.toNat then s.txCrc.map (byteStep s.cfg.crcPoly · b) else s.txCrc) =
      some (crcReg s.cfg.crcPoly s.cfg.crcInit
        ((covered s.cfg f.cmd f.addr f.len f.data).take (s.txIdx + 1))) := by
  obtain ⟨-, hn⟩ := txOperands_ndata h.ops
  have hcovlen := covered_length s.cfg f.cmd f.addr f.len f.data
  rw [h.crc]
  split
  · rw [txByte_covered h.ops ‹_›] at hb
    rw [List.take_add_one, hb, Option.toList_some, crcReg_snoc, Option.map_some]
  · rw [List.take_of_length_le (by omega), List.take_of_length_le (by omega)]

/-- The serializer after an accepted byte of the frame, before it asks whether that was the last. -/
def sentByte (f : TxOperands) (b : Byte) (s : State) : State :=
  { s with
    txCrc := some (crcReg s.cfg.crcPoly s.cfg.crcInit
      ((covered s.cfg f.cmd f.addr f.len f.data).take (s.txIdx + 1)))
    txIdx := s.txIdx + 1, putAnswers := s.putAnswers.tail, linkPuts := s.linkPuts + 1
    linkOut := s.linkOut ++ [b] }

theorem Sending.step_accepted (h : Sending s f) (hb : txByte s f.ndata.toNat s.txIdx = some b)
    (hput : nextPut s = .accepted) :
    txStep s = .next
      (if s.txIdx + 1 = s.txFrameLen then completeSend (sentByte f b s) else sentByte f b s) := by
  obtain ⟨hnd, -⟩ := txOperands_ndata h.ops
  simp only [txStep, if_neg (Nat.not_le.2 h.idx), hnd, hb, linkPut_accepted hput]
  simp only [sentByte, ← h.crc_after_byte hb]
  rfl

theorem Sending.step_rejected (h : Sending s f) (hput : nextPut s = .rejected) :
    txStep s = .next (raise .send .transportWriteFailure (putRejected s)) := by
  obtain ⟨hnd, -⟩ := txOperands_ndata h.ops
  obtain ⟨b, hb⟩ := h.exists_txByte
  simp only [txStep, if_neg (Nat.not_le.2 h.idx), hnd, hb, linkPut_rejected hput]

/-- A byte that is not the last leaves SEND in flight. -/
theorem Sending.of_sentByte (h : Sending s f) (hmore : s.txIdx + 1 ≠ s.txFrameLen) :
    Sending (sentByte f b s) f :=
  ⟨h.state, h.ops, h.cmd, h.shape, h.frameLen, Nat.lt_of_le_of_ne h.idx hmore, rfl⟩

/-- SEND in flight always moves, whatever the link answers, and is then still in flight, one byte on,
or has ended (R126 to R129). -/
theorem Sending.step (h : Sending s f) :
    ∃ t, txStep s = .next t ∧ t.linkPuts = s.linkPuts + 1 ∧
      ((t.txState = .idle ∧ t.txIdx = 0) ∨
        (Sending t f ∧ t.txIdx = s.txIdx + 1 ∧ t.txFrameLen = s.txFrameLen)) := by
  obtain ⟨b, hb⟩ := h.exists_txByte
  cases hput : nextPut s with
  | rejected => exact ⟨_, h.step_rejected hput, rfl, .inl ⟨rfl, rfl⟩⟩
  | accepted =>
    have hstep := h.step_accepted hb hput
    by_cases hlast : s.txIdx + 1 = s.txFrameLen
    · rw [if_pos hlast] at hstep
      exact ⟨_, hstep, rfl, .inl ⟨rfl, rfl⟩⟩
    · rw [if_neg hlast] at hstep
      exact ⟨_, hstep, rfl, .inr ⟨h.of_sentByte hlast, rfl, rfl⟩⟩

end

/-- A step of SEND keeps the serializer's part of the invariant. -/
theorem TxInv.of_txStep {s t : State} (h : TxInv s) (hs : s.txState = .send)
    (ht : txStep s = .next t) : TxInv t := by
  obtain ⟨f, hf⟩ := (txInv_of_send hs).1 h
  obtain ⟨u, hu, -, ⟨hidle, hidx⟩ | ⟨hsend, -⟩⟩ := hf.step
  · obtain rfl := Host.Outcome.next.inj (hu.symm.trans ht)
    exact (txInv_of_idle hidle).2 hidx
  · obtain rfl := Host.Outcome.next.inj (hu.symm.trans ht)
    exact (txInv_of_send hsend.state).2 ⟨f, hsend⟩

end Sys2Proof.Machine
end

section
/-! PROOF. The deserializer phase by phase: where it is says what its registers hold (R142 to
R157). -/

namespace Sys2Proof.Machine

theorem rxInv_of_idle {s : State} (h : s.rxState = .idle) :
    RxInv s ↔ s.rxIdx = 0 ∧ if s.rxValid then s.Delivered else s.NoResult := by
  simp only [RxInv, h]

theorem rxInv_raise (e : ErrorKind) (s : State) : RxInv (raise .recv e s) :=
  ⟨rfl, noResult_raiseRecv e s⟩

/-- RX_CRC takes the next byte of the frame (R150, R152). -/
theorem State.RxCrcOver.snoc {s : State} {bytes : List Byte} (h : s.RxCrcOver bytes) (b : Byte) :
    s.rxCrc.map (byteStep s.cfg.crcPoly · b) =
      some (crcReg s.cfg.crcPoly s.cfg.crcInit (bytes ++ [b])) := by
  rw [show s.rxCrc = _ from h, crcReg_snoc, Option.map_some]

/-- The buffer's form is part of what each phase says. -/
theorem RxInv.rxData_wf {s : State} (h : RxInv s) : s.rxData.wf s.cfg.maxLen = true := by
  have hnil : s.rxData = [] → s.rxData.wf s.cfg.maxLen = true := fun h => by rw [h]; rfl
  cases hs : s.rxState with
  | idle =>
    obtain ⟨-, h⟩ := (rxInv_of_idle hs).1 h
    cases hv : s.rxValid with
    | true =>
      rw [if_pos hv] at h
      obtain ⟨cmd, addr, len, data, -, ⟨-, -, -, hdata⟩, -⟩ := h
      exact hdata.1
    | false =>
      rw [if_neg (by simp [hv])] at h
      obtain ⟨-, -, -, hdata, -⟩ := h
      exact hnil hdata
  | search =>
    simp only [RxInv, hs] at h
    obtain ⟨-, -, -, -, -, -, hdata, -⟩ := h
    exact hnil hdata
  | header =>
    simp only [RxInv, hs] at h
    obtain ⟨-, -, -, hdata, -⟩ := h
    exact hnil hdata
  | data =>
    simp only [RxInv, hs] at h
    obtain ⟨-, -, -, -, cmd, addr, len, data, -, -, ⟨-, -, -, hdata⟩, -⟩ := h
    exact hdata.1
  | ck =>
    simp only [RxInv, hs] at h
    obtain ⟨-, -, -, -, cmd, addr, len, data, -, ⟨-, -, -, hdata⟩, -⟩ := h
    exact hdata.1

section
variable {s : State} {b : Byte}

theorem RxInv.of_searchStep (h : RxInv s) (hs : s.rxState = .search) (a : GetAnswer) :
    RxInv (searchStep a s) := by
  simp only [RxInv, hs] at h
  obtain ⟨hi, hv, he, hno⟩ := h
  have hstay : ∀ saw : Bool, RxInv { s with scanCnt := s.scanCnt + 1, sawSync1 := saw } := by
    intro saw
    simp only [RxInv, hs]
    exact ⟨hi, hv, he, hno⟩
  cases a with
  | timeout => exact hstay false
  | byte b =>
    by_cases hm : s.sawSync1 = true ∧ b = s.cfg.sync2
    · obtain ⟨hsaw, rfl⟩ := hm
      obtain ⟨hcmd, haddr, hlen, hdata, hlo, hhi⟩ := hno
      rw [searchStep_match hsaw]
      exact ⟨hv, he, hlen, hdata, hlo, hhi, .inl ⟨rfl, hcmd, haddr, rfl⟩⟩
    · rw [searchStep_other hm]
      exact hstay _

theorem RxInv.of_headerStep (h : RxInv s) (hs : s.rxState = .header) : RxInv (headerStep b s) := by
  simp only [RxInv, hs] at h
  obtain ⟨hv, he, hlen, hdata, hlo, hhi, ⟨hi, -, haddr, hcrc⟩ | ⟨hi, haddr, cmd, hcmd, hcrc⟩ |
    ⟨hi, cmd, addr, hcmd, haddr, hcrc⟩⟩ := h
  · rw [headerStep_cmd b hi]
    simp only [RxInv, hs]
    exact ⟨hv, he, hlen, hdata, hlo, hhi, .inr (.inl ⟨trivial, haddr, b, rfl, hcrc.snoc b⟩)⟩
  · rw [headerStep_addr b hi]
    simp only [RxInv, hs]
    exact ⟨hv, he, hlen, hdata, hlo, hhi, .inr (.inr ⟨trivial, cmd, b, hcmd, rfl, hcrc.snoc b⟩)⟩
  · have hheld : Buffer.Holds s.cfg.maxLen s.rxData [] := hdata ▸ Buffer.Holds.nil _
    rw [headerStep_len b hi]
    by_cases hb : 0 < b.toNat
    · rw [if_pos hb]
      exact ⟨hv, he, hlo, hhi, cmd, addr, b, [], rfl, hb, ⟨hcmd, haddr, rfl, hheld⟩, hcrc.snoc b⟩
    · rw [if_neg hb]
      exact ⟨hv, he, hhi, .inl ⟨rfl, hlo⟩, cmd, addr, b, [], (Nat.eq_zero_of_not_pos hb).symm,
        ⟨hcmd, haddr, rfl, hheld⟩, hcrc.snoc b⟩

theorem RxInv.of_dataStep (h : RxInv s) (hs : s.rxState = .data) {len : Byte}
    (hl : s.rxLen = some len) : RxInv (dataStep len b s) := by
  simp only [RxInv, hs] at h
  obtain ⟨hv, he, hlo, hhi, cmd, addr, len', data, hn, hi, ⟨hcmd, haddr, hl', hheld⟩, hcrc⟩ := h
  obtain rfl : len = len' := Option.some.inj (hl.symm.trans hl')
  have hstored : (s.rxData.store s.cfg.maxLen s.rxIdx b).Holds s.cfg.maxLen (data ++ [b]) :=
    hn ▸ hheld.snoc
  have hcrc' := hcrc.snoc b
  rw [← covered_snoc] at hcrc'
  by_cases hlast : s.rxIdx + 1 = len.toNat
  · rw [dataStep_last b hlast]
    exact ⟨hv, he, hhi, .inl ⟨rfl, hlo⟩, cmd, addr, len, data ++ [b], by simp [hn, hlast],
      ⟨hcmd, haddr, hl, hstored⟩, hcrc'⟩
  · rw [dataStep_more b hlast]
    simp only [RxInv, hs]
    exact ⟨hv, he, hlo, hhi, cmd, addr, len, data ++ [b], by simp [hn], by omega,
      ⟨hcmd, haddr, hl, hstored⟩, hcrc'⟩

/-- Both checksum bytes right is a delivered frame (R154, R157). -/
theorem RxInv.delivered (h : RxInv s) (hs : s.rxState = .ck) {crc : Code} {lo : Byte}
    (hcrc : s.rxCrc = some crc) (hlo : s.rxCkLo = some lo) (hok : checksumOk crc lo b = true) :
    (completeRecv { s with rxCkHi := some b, rxIdx := 2 }).Delivered := by
  simp only [RxInv, hs] at h
  obtain ⟨-, -, -, -, cmd, addr, len, data, hn, hheld, hover⟩ := h
  obtain rfl := Option.some.inj (hcrc.symm.trans hover)
  obtain ⟨rfl, rfl⟩ := checksumOk_iff.1 hok
  exact ⟨cmd, addr, len, data, hn, hheld, hlo, rfl⟩

theorem RxInv.of_ckStep {t : State} (h : RxInv s) (hs : s.rxState = .ck) (ht : ckStep b s = .next t) :
    RxInv t := by
  obtain ⟨h0, rfl⟩ | ⟨-, ⟨e, rfl⟩ | ⟨crc, lo, hcrc, hlo, hok, rfl⟩⟩ := ckStep_next ht
  · simp only [RxInv, hs] at h ⊢
    obtain ⟨hv, he, hhi, -, hframe⟩ := h
    exact ⟨hv, he, hhi, .inr ⟨trivial, rfl⟩, hframe⟩
  · exact rxInv_raise _ _
  · exact ⟨rfl, h.delivered hs hcrc hlo hok⟩

end

/-- A step of RECV keeps the deserializer's part of the invariant. -/
theorem RxInv.of_rxStep {s t : State} (h : RxInv s) (ht : rxStep s = .next t) : RxInv t := by
  have hget : RxInv (afterGet s) := h
  obtain ⟨-, rfl⟩ | ⟨-, -, rfl⟩ | ⟨hs, -, rfl⟩ | ⟨-, -, -, rfl⟩ |
    ⟨b, -, ⟨hs, rfl⟩ | ⟨len, hs, hl, rfl⟩ | ⟨hs, hck⟩⟩ := rxStep_next ht
  · exact h
  · exact rxInv_raise _ _
  · exact hget.of_searchStep hs _
  · exact rxInv_raise _ _
  · exact hget.of_headerStep hs
  · exact hget.of_dataStep hs hl
  · exact hget.of_ckStep hs hck

/-- An attempt of the search counts (R144) and leaves the flags. -/
theorem searchStep_flags (a : GetAnswer) (s : State) :
    (searchStep a s).scanCnt = s.scanCnt + 1 ∧ (searchStep a s).status = s.status ∧
      (searchStep a s).rxValid = s.rxValid := by
  cases a with
  | timeout => exact ⟨rfl, rfl, rfl⟩
  | byte b =>
    by_cases h : s.sawSync1 = true ∧ b = s.cfg.sync2
    · obtain ⟨hs, rfl⟩ := h
      rw [searchStep_match hs]; exact ⟨rfl, rfl, rfl⟩
    · rw [searchStep_other h]; exact ⟨rfl, rfl, rfl⟩

theorem headerStep_flags (b : Byte) (s : State) :
    (headerStep b s).scanCnt = s.scanCnt ∧ (headerStep b s).status = s.status ∧
      (headerStep b s).rxValid = s.rxValid := by
  by_cases h0 : s.rxIdx = 0
  · rw [headerStep_cmd b h0]; exact ⟨rfl, rfl, rfl⟩
  · by_cases h1 : s.rxIdx = 1
    · rw [headerStep_addr b h1]; exact ⟨rfl, rfl, rfl⟩
    · rw [headerStep_of_two_le b (by omega)]; exact ⟨rfl, rfl, rfl⟩

/-- SCAN_CNT counts an attempt only below the cap (R144). -/
theorem rxStep_scanCnt {s t : State} (ht : rxStep s = .next t) (h : s.scanCnt ≤ s.cfg.syncCap) :
    t.scanCnt ≤ s.cfg.syncCap := by
  obtain ⟨-, rfl⟩ | ⟨-, -, rfl⟩ | ⟨-, hc, rfl⟩ | ⟨-, -, -, rfl⟩ |
    ⟨b, -, ⟨-, rfl⟩ | ⟨len, -, -, rfl⟩ | ⟨-, hck⟩⟩ := rxStep_next ht
  · exact h
  · exact h
  · obtain ⟨hcount, -⟩ := searchStep_flags (nextGet s) (afterGet s)
    exact hcount.trans_le hc
  · exact h
  · obtain ⟨hcount, -⟩ := headerStep_flags b (afterGet s)
    exact hcount.trans_le h
  · rw [dataStep_eq]; exact h
  · obtain ⟨-, rfl⟩ | ⟨-, ⟨e, rfl⟩ | ⟨crc, lo, -, -, -, rfl⟩⟩ := ckStep_next hck <;> exact h

/-- RX_VALID rises only with the second checksum byte of a frame that passes the tests (R30, R157). -/
theorem rxStep_rxValid {s t : State} (hi : RxInv s) (ht : rxStep s = .next t)
    (h0 : s.rxValid = false) (h1 : t.rxValid = true) :
    s.rxState = .ck ∧ s.rxIdx = 1 ∧ t.status = .ok ∧ t.rxState = .idle ∧ t.Delivered := by
  have hfalse : ∀ u : State, u.rxValid = s.rxValid → u.rxValid = true → False := fun u hu hu' => by
    rw [hu, h0] at hu'; cases hu'
  obtain ⟨-, rfl⟩ | ⟨-, -, rfl⟩ | ⟨-, -, rfl⟩ | ⟨-, -, -, rfl⟩ |
    ⟨b, -, ⟨-, rfl⟩ | ⟨len, -, -, rfl⟩ | ⟨hs, hck⟩⟩ := rxStep_next ht
  · exact (hfalse _ rfl h1).elim
  · cases h1
  · obtain ⟨-, -, hv⟩ := searchStep_flags (nextGet s) (afterGet s)
    exact (hfalse _ hv h1).elim
  · cases h1
  · obtain ⟨-, -, hv⟩ := headerStep_flags b (afterGet s)
    exact (hfalse _ hv h1).elim
  · rw [dataStep_eq] at h1
    exact (hfalse (afterGet s) rfl h1).elim
  · obtain ⟨-, rfl⟩ | ⟨hne, ⟨e, rfl⟩ | ⟨crc, lo, hcrc, hlo, hok, rfl⟩⟩ := ckStep_next hck
    · exact (hfalse (afterGet s) rfl h1).elim
    · cases h1
    · have hget : RxInv (afterGet s) := hi
      have hone : s.rxIdx = 1 := by
        simp only [RxInv, hs] at hi
        obtain ⟨-, -, -, ⟨hidx, -⟩ | ⟨hidx, -⟩, -⟩ := hi
        · exact absurd hidx hne
        · exact hidx
      exact ⟨hs, hone, rfl, rfl, hget.delivered hs hcrc hlo hok⟩

/-- A step of RECV writes STATUS only where it ends the operation (R29). -/
theorem rxStep_status {s t : State} (ht : rxStep s = .next t) :
    t.status = s.status ∨ t.rxState = .idle := by
  obtain ⟨-, rfl⟩ | ⟨-, -, rfl⟩ | ⟨-, -, rfl⟩ | ⟨-, -, -, rfl⟩ |
    ⟨b, -, ⟨-, rfl⟩ | ⟨len, -, -, rfl⟩ | ⟨-, hck⟩⟩ := rxStep_next ht
  · exact .inl rfl
  · exact .inr rfl
  · obtain ⟨-, hst, -⟩ := searchStep_flags (nextGet s) (afterGet s)
    exact .inl hst
  · exact .inr rfl
  · obtain ⟨-, hst, -⟩ := headerStep_flags b (afterGet s)
    exact .inl hst
  · rw [dataStep_eq]; exact .inl rfl
  · obtain ⟨-, rfl⟩ | ⟨-, ⟨e, rfl⟩ | ⟨crc, lo, -, -, -, rfl⟩⟩ := ckStep_next hck
    · exact .inl rfl
    · exact .inr rfl
    · exact .inr rfl

/-- An answer after sync is handled where each byte is. -/
theorem exists_onByte {f : Byte → State → Out} {s : State} (h : ∀ b, ∃ t, f b s = .next t)
    (a : GetAnswer) : ∃ t, onByte f a s = .next t := by
  cases a with
  | timeout => exact ⟨_, rfl⟩
  | byte b => exact h b

/-- RECV always moves, whatever the link answers: no register it needs is without its value. -/
theorem RxInv.exists_rxStep {s : State} (h : RxInv s) : ∃ t, rxStep s = .next t := by
  cases hs : s.rxState with
  | idle => exact ⟨s, by simp only [rxStep, hs]⟩
  | search =>
    by_cases hc : s.cfg.syncCap ≤ s.scanCnt
    · exact ⟨_, rxStep_cap hs hc⟩
    · exact ⟨_, rxStep_search hs (by omega)⟩
  | header =>
    rw [rxStep_header hs]
    exact exists_onByte (f := fun b u => .next (headerStep b u)) (fun b => ⟨_, rfl⟩) _
  | data =>
    simp only [RxInv, hs] at h
    obtain ⟨-, -, -, -, cmd, addr, len, data, -, -, ⟨-, -, hl, -⟩, -⟩ := h
    rw [rxStep_data hs hl]
    exact exists_onByte (f := fun b u => .next (dataStep len b u)) (fun b => ⟨_, rfl⟩) _
  | ck =>
    simp only [RxInv, hs] at h
    obtain ⟨-, he, -, hidx, cmd, addr, len, data, -, ⟨hcmd, -, -, -⟩, hcrc⟩ := h
    rw [rxStep_ck hs]
    refine exists_onByte (fun b => ?_) _
    obtain ⟨h0, -⟩ | ⟨h1, hlo⟩ := hidx
    · exact ⟨_, ckStep_first (s := afterGet s) b h0⟩
    · obtain ⟨lo, hlo⟩ := Option.isSome_iff_exists.1 hlo
      have hne : (afterGet s).rxIdx ≠ 0 := by
        change s.rxIdx ≠ 0
        omega
      exact ⟨_, ckStep_second b hne hcrc hlo hcmd he⟩

end Sys2Proof.Machine
end

section
/-! PROOF. The invariant of the machine, kept by every step (R11), and what follows of it: where
STATUS and RX_VALID change (R29, R30), the ranges of the indices (R26, R34), a busy block that moves. -/

namespace Sys2Proof.Machine

/-! ### Every step keeps it -/

/-- At most one operation is in flight (R31). -/
theorem Inv.one {s : State} : Inv s → s.txState = .send → s.rxState = .idle
  | ⟨h, _⟩ => h

theorem Inv.tx {s : State} : Inv s → TxInv s
  | ⟨_, h, _⟩ => h

theorem Inv.rx {s : State} : Inv s → RxInv s
  | ⟨_, _, h, _⟩ => h

theorem Inv.of_txStep {s t : State} (h : Inv s) (hs : s.txState = .send) (ht : txStep s = .next t) :
    Inv t := by
  have htx := h.tx.of_txStep hs ht
  have hidle := h.one hs
  have hrx := (rxInv_of_idle hidle).1 h.rx
  obtain ⟨-, -, -, hscan, hwt, hwr⟩ := h
  rw [txStep_eq_sendWrites ht] at htx ⊢
  have hidle' : (sendWrites s t).rxState = .idle := hidle
  exact ⟨fun _ => hidle, htx, (rxInv_of_idle hidle').2 hrx, hscan, hwt, hwr⟩

theorem Inv.of_rxStep {s t : State} (h : Inv s) (hs : s.txState = .idle) (ht : rxStep s = .next t) :
    Inv t := by
  have hidx := (txInv_of_idle hs).1 h.tx
  have hrx := h.rx.of_rxStep ht
  have hwr := hrx.rxData_wf
  obtain ⟨-, -, -, hscan, hwt, -⟩ := h
  have hscan' := rxStep_scanCnt ht hscan
  rw [rxStep_eq_recvWrites ht] at hrx hwr hscan' ⊢
  have hs' : (recvWrites s t).txState = .idle := hs
  exact ⟨fun hsend => absurd (hs.symm.trans hsend) nofun, (txInv_of_idle hs').2 hidx, hrx, hscan',
    hwt, hwr⟩

theorem IdleUpdate.inv {s t : State} (h : IdleUpdate s t) (hi : Inv s) : Inv t := by
  obtain ⟨hts, hrs⟩ := State.busy_eq_false.1 h.idle
  have hidx := (txInv_of_idle hts).1 hi.tx
  have hrx := (rxInv_of_idle hrs).1 hi.rx
  obtain ⟨-, -, -, hscan, hwt, hwr⟩ := hi
  have hwt' := h.wf hwt
  rw [h.eq] at hwt' ⊢
  have hts' : (hostWrites s t).txState = .idle := hts
  have hrs' : (hostWrites s t).rxState = .idle := hrs
  exact ⟨fun _ => hrs, (txInv_of_idle hts').2 hidx, (rxInv_of_idle hrs').2 hrx, hscan, hwt', hwr⟩

theorem Inv.of_startSend {s : State} {f : TxOperands} (h : Inv s) (hf : sendCheck s = .ok f) :
    Inv (startSend f.ndata.toNat s) := by
  have hrx := h.rx
  obtain ⟨-, -, -, hscan, hwt, hwr⟩ := h
  obtain ⟨-, -, hb, -⟩ := sendCheck_eq_ok.1 hf
  exact ⟨fun _ => rxState_of_idle (s := s) hb, (txInv_of_send rfl).2 ⟨f, sending_startSend hf⟩, hrx,
    hscan, hwt, hwr⟩

theorem Inv.of_startRecv {s : State} (h : Inv s) (hc : recvCheck s = .ok ()) : Inv (startRecv s) := by
  obtain ⟨-, -, hb, he⟩ := recvCheck_eq_ok.1 hc
  have hts := txState_of_idle hb
  have hidx := (txInv_of_idle hts).1 h.tx
  obtain ⟨-, -, -, -, hwt, -⟩ := h
  have hts' : (startRecv s).txState = .idle := hts
  exact ⟨fun hsend => absurd (hts.symm.trans hsend) nofun, (txInv_of_idle hts').2 hidx,
    ⟨rfl, rfl, he, rfl, rfl, rfl, rfl, rfl, rfl⟩, Nat.zero_le _, hwt, rfl⟩

theorem inv_resetBlock (s : State) : Inv (resetBlock s) :=
  ⟨fun _ => rfl, rfl, ⟨rfl, rfl, rfl, rfl, rfl, rfl, rfl⟩, Nat.zero_le _, rfl, rfl⟩

theorem Performed.inv {a : HostAction} {s t : State} (h : Performed a s t) (hi : Inv s) : Inv t := by
  cases h with
  | arrive bytes => exact hi
  | read v => exact hi
  | update h => exact h.inv hi
  | send hu hf => exact (hu.inv hi).of_startSend hf
  | recv h => exact hi.of_startRecv h
  | reset h => exact inv_resetBlock s

theorem Inv.of_seqStep {s t : State} (h : Inv s) (ht : seqStep s = .next t) : Inv t := by
  obtain ⟨hs, ht⟩ | ⟨hs, ht⟩ := seqStep_next ht
  · exact h.of_txStep hs ht
  · exact h.of_rxStep hs ht

/-- Settles O8: by the kinds of step, each with its own lemma. -/
theorem stepKeepsInv : Obligations.StepKeepsInv := by
  intro s t hi h
  cases stepped_of_step h with
  | stay => exact hi
  | move hb hseq => exact hi.of_seqStep hseq
  | request r rest hh hp =>
    have hi' : Inv { s with host := rest } := hi
    exact hp.inv hi'

/-- Settles O9: reset of the reset state is the reset state. -/
theorem resetHasInv : Obligations.ResetHasInv := inv_resetBlock State.reset

/-! ### Where STATUS and RX_VALID change -/

/-- Settles O6: a sequencer that writes STATUS goes idle, the other is idle, and no request but reset
writes it. -/
theorem statusChangesOnlyAtCompletion : Obligations.StatusChangesOnlyAtCompletion := by
  intro s t hi h hne hreset
  cases stepped_of_step h with
  | stay => exact absurd rfl hne
  | move hb hseq =>
    refine ⟨hb, State.busy_eq_false.2 ?_⟩
    obtain ⟨hs, ht⟩ | ⟨hs, ht⟩ := seqStep_next hseq
    · refine ⟨(txStep_status ht).resolve_left hne, ?_⟩
      rw [txStep_eq_sendWrites ht]
      exact hi.one hs
    · refine ⟨?_, (rxStep_status ht).resolve_left hne⟩
      rw [rxStep_eq_recvWrites ht]
      exact hs
  | request r rest hh hp =>
    exact absurd (hp.keeps.status (hreset r (by rw [hh]; rfl))) hne

/-- Settles O7: only RECV raises RX_VALID, and then as `rxStep_rxValid` says. -/
theorem resultIsAWholeCheckedFrame : Obligations.ResultIsAWholeCheckedFrame := by
  intro s t hi h h0 h1
  cases stepped_of_step h with
  | stay => rw [h0] at h1; cases h1
  | move hb hseq =>
    obtain ⟨hs, ht⟩ | ⟨hs, ht⟩ := seqStep_next hseq
    · rw [txStep_eq_sendWrites ht] at h1
      exact absurd (h0.symm.trans h1) nofun
    · obtain ⟨hck, hidx, hstatus, hidle, hdel⟩ := rxStep_rxValid hi.rx ht h0 h1
      refine ⟨hck, hidx, hstatus, State.busy_eq_false.2 ⟨?_, hidle⟩, hdel⟩
      rw [rxStep_eq_recvWrites ht]
      exact hs
  | request r rest hh hp => exact absurd (h0.symm.trans (hp.keeps.rxValid h1)) nofun

/-! ### Ranges -/

/-- A frame in flight has at most MAX_LEN data bytes (R121, log 4). -/
theorem Sending.ndata_le {s : State} {f : TxOperands} (h : Sending s f) :
    f.ndata.toNat ≤ s.cfg.maxLen := by
  obtain ⟨hlen, hn | ⟨-, hn⟩⟩ := wfShape_iff.1 h.shape
  · rw [hn]; exact hlen
  · rw [hn]; exact Nat.zero_le _

/-- What the deserializer's part of the invariant says of its index. -/
theorem RxInv.rxIdx_range {s : State} (h : RxInv s) :
    (s.rxState = .idle ∧ s.rxIdx = 0) ∨ (s.rxState = .search ∧ s.rxIdx = 0) ∨
    (s.rxState = .header ∧ s.rxIdx < 3) ∨
    (s.rxState = .data ∧ ∃ len, s.rxLen = some len ∧ s.rxIdx < len.toNat) ∨
    (s.rxState = .ck ∧ s.rxIdx < 2) := by
  cases hs : s.rxState with
  | idle =>
    obtain ⟨hi, -⟩ := (rxInv_of_idle hs).1 h
    exact .inl ⟨rfl, hi⟩
  | search =>
    simp only [RxInv, hs] at h
    obtain ⟨hi, -⟩ := h
    exact .inr (.inl ⟨rfl, hi⟩)
  | header =>
    simp only [RxInv, hs] at h
    obtain ⟨-, -, -, -, -, -, ⟨hi, -⟩ | ⟨hi, -⟩ | ⟨hi, -⟩⟩ := h <;>
      exact .inr (.inr (.inl ⟨rfl, by omega⟩))
  | data =>
    simp only [RxInv, hs] at h
    obtain ⟨-, -, -, -, cmd, addr, len, data, -, hi, ⟨-, -, hl, -⟩, -⟩ := h
    exact .inr (.inr (.inr (.inl ⟨rfl, len, hl, hi⟩)))
  | ck =>
    simp only [RxInv, hs] at h
    obtain ⟨-, -, -, ⟨hi, -⟩ | ⟨hi, -⟩, -⟩ := h <;>
      exact .inr (.inr (.inr (.inr ⟨rfl, by omega⟩)))

/-- Settles O10: the serializer's ranges from its frame, the deserializer's phase by phase. -/
theorem indicesStayInRange : Obligations.IndicesStayInRange := by
  intro s hi
  have hrange := hi.rx.rxIdx_range
  have htx := hi.tx
  obtain ⟨-, -, -, hscan, -⟩ := hi
  refine ⟨fun hs => ?_, fun hs => (txInv_of_idle hs).1 htx, fun hs => ?_, fun hs => ?_, fun hs => ?_,
    ?_, hscan⟩
  · obtain ⟨f, hf⟩ := (txInv_of_send hs).1 htx
    have hlen := hf.frameLen
    have hle := hf.ndata_le
    have hbyte := f.ndata.isLt
    refine ⟨hf.idx, ?_, ?_, ?_⟩
    · omega
    · unfold Config.longestFrame; omega
    · omega
  · simpa [hs] using hrange
  · simpa [hs] using hrange
  · simpa [hs] using hrange
  · obtain ⟨-, h⟩ | ⟨-, h⟩ | ⟨-, h⟩ | ⟨-, len, -, h⟩ | ⟨-, h⟩ := hrange
    · omega
    · omega
    · omega
    · have hbyte := len.isLt
      omega
    · omega

/-! ### A busy block moves -/

/-- Settles O11: each sequencer moves by its part of the invariant. -/
theorem busyBlockAlwaysMoves : Obligations.BusyBlockAlwaysMoves := by
  intro s hi hb
  cases hs : s.txState with
  | send =>
    obtain ⟨f, hf⟩ := (txInv_of_send hs).1 hi.tx
    obtain ⟨t, ht, -⟩ := hf.step
    exact ⟨t, (seqStep_of_send hs).trans ht⟩
  | idle =>
    obtain ⟨t, ht⟩ := hi.rx.exists_rxStep
    exact ⟨t, (seqStep_of_idle hs).trans ht⟩

end Sys2Proof.Machine
end

section
/-! PROOF. Runs of the sequencer in flight, which the machine makes while its host waits (R11, R64)
and a blocking host call makes too; and the whole of a SEND (R122 to R129). -/

namespace Sys2Proof.Machine

/-! ### Moves of a busy block -/

/-- `k` moves of the sequencer in flight lead from `s` to `t`. -/
def SeqRuns : Nat → State → State → Prop
  | 0, s, t => s = t
  | k + 1, s, t => s.busy = true ∧ ∃ u, seqStep s = .next u ∧ SeqRuns k u t

theorem SeqRuns.one {s t : State} (hb : s.busy = true) (h : seqStep s = .next t) : SeqRuns 1 s t :=
  ⟨hb, t, h, rfl⟩

theorem SeqRuns.trans {j k : Nat} {s u t : State} (h1 : SeqRuns j s u) (h2 : SeqRuns k u t) :
    SeqRuns (j + k) s t := by
  induction j generalizing s with
  | zero =>
    cases h1
    rwa [Nat.zero_add]
  | succ j ih =>
    obtain ⟨hb, v, hv, h1⟩ := h1
    rw [Nat.succ_add]
    exact ⟨hb, v, hv, ih h1⟩

theorem SeqRuns.snoc {k : Nat} {s u t : State} (h : SeqRuns k s u) (hb : u.busy = true)
    (hu : seqStep u = .next t) : SeqRuns (k + 1) s t :=
  h.trans (.one hb hu)

/-- While the host waits the machine makes these moves (R11, R64). -/
theorem SeqRuns.runs {k : Nat} {s t : State} (h : SeqRuns k s t) (hl : s.cfg.legal = true)
    (hw : HostWaits s) : Runs k s t := by
  induction k generalizing s with
  | zero => exact h
  | succ k ih =>
    obtain ⟨hb, u, hu, h⟩ := h
    obtain ⟨hcfg, hhost⟩ := seqStep_keeps_cfg_host hu
    have hw' : HostWaits u := by
      intro r hr
      exact hw r (hhost ▸ hr)
    exact ⟨u, (step_of_busy hl hb hw).trans hu, ih h (hcfg ▸ hl) hw'⟩

/-- A host call that waits for the block to be idle makes these moves. -/
theorem SeqRuns.runToIdle_eq {k n : Nat} {s t : State} (h : SeqRuns k s t) (hidle : t.busy = false)
    (hn : k ≤ n) : runToIdle n s = .next t := by
  induction k generalizing s n with
  | zero =>
    cases h
    cases n with
    | zero => rfl
    | succ n => simp [runToIdle, hidle]
  | succ k ih =>
    obtain ⟨hb, u, hu, h⟩ := h
    obtain ⟨m, rfl⟩ : ∃ m, n = m + 1 := ⟨n - 1, by omega⟩
    have hrest := ih h (Nat.le_of_succ_le_succ hn)
    simp [runToIdle, hb, hu, hrest]

theorem busy_of_send {s : State} (h : s.txState = .send) : s.busy = true := by
  simp [State.busy, h]

theorem busy_of_recv {s : State} (h : s.rxState ≠ .idle) : s.busy = true := by
  simp [State.busy, h]

/-- RECV has ended where its state is idle, the serializer being idle all along. -/
theorem idle_of_rxState {s t : State} (hb : s.busy = false) (ht : t.txState = s.txState)
    (hr : t.rxState = .idle) : t.busy = false :=
  State.busy_eq_false.2 ⟨ht.trans (txState_of_idle hb), hr⟩

/-! ### Every SEND ends -/

theorem Sending.ends {s : State} {f : TxOperands} (h : Sending s f) (hrx : s.rxState = .idle)
    {n : Nat} (hn : s.txFrameLen ≤ s.txIdx + n) :
    ∃ k u, SeqRuns k s u ∧ k ≤ n ∧ u.busy = false ∧ u.linkPuts = s.linkPuts + k := by
  induction n generalizing s with
  | zero =>
    have hi := h.idx
    omega
  | succ n ih =>
    obtain ⟨t, ht, hputs, hcase⟩ := h.step
    have hstep : seqStep s = .next t := (seqStep_of_send h.state).trans ht
    have hrx' : t.rxState = .idle := by rw [txStep_eq_sendWrites ht]; exact hrx
    obtain ⟨hidle, -⟩ | ⟨hmore, hidx, hlen⟩ := hcase
    · exact ⟨1, t, .one (busy_of_send h.state) hstep, by omega, State.busy_eq_false.2 ⟨hidle, hrx'⟩,
        hputs⟩
    · obtain ⟨k, u, hruns, hk, hidle, hputs'⟩ := ih hmore hrx' (by omega)
      exact ⟨k + 1, u, ⟨busy_of_send h.state, t, hstep, hruns⟩, by omega, hidle, by omega⟩

/-- Settles O13: one link answer a move, and the index rises to TX_FRAME_LEN. -/
theorem everySendEnds : Obligations.EverySendEnds := by
  intro s t f hadm hw hexec
  have hcheck := sendAdmitted_iff.1 hadm
  obtain ⟨hl, -, hb, -⟩ := sendCheck_eq_ok.1 hcheck
  obtain rfl := eq_startSend_of_exec hadm hexec
  obtain ⟨k, u, hruns, hk, hidle, hputs⟩ := (sending_startSend hcheck).ends
    (rxState_of_idle (s := s) hb) (n := 5 + f.ndata.toNat + 2) (Nat.le_add_left _ _)
  exact ⟨k, u, hruns.runs hl hw, hk, hidle, hputs.trans_le (Nat.add_le_add_left hk _)⟩

/-! ### The bytes of a SEND, one after another -/

/-- SEND after the first `k` bytes of its frame, all accepted. -/
def sentTo (f : TxOperands) (k : Nat) (s : State) : State :=
  { s with
    txCrc := some (crcReg s.cfg.crcPoly s.cfg.crcInit
      ((covered s.cfg f.cmd f.addr f.len f.data).take k))
    txIdx := k, putAnswers := s.putAnswers.drop k, linkPuts := s.linkPuts + k
    linkOut := s.linkOut ++ (frameBytes s.cfg f.cmd f.addr f.len f.data).take k }

theorem sentTo_zero (f : TxOperands) (n : Nat) (s : State) :
    sentTo f 0 (startSend n s) = startSend n s := by
  simp [sentTo, startSend]

theorem sentByte_sentTo {f : TxOperands} {k : Nat} {s : State} {b : Byte}
    (hb : (frameBytes s.cfg f.cmd f.addr f.len f.data)[k]? = some b) :
    sentByte f b (sentTo f k s) = sentTo f (k + 1) s := by
  simp [sentByte, sentTo, List.take_add_one, hb, Nat.add_assoc]

theorem nextPut_of_head? {s : State} {a : PutAnswer} (h : s.putAnswers.head? = some a) :
    nextPut s = a := by
  unfold nextPut
  cases hp : s.putAnswers with
  | nil => simp [hp] at h
  | cons b l => simpa [hp] using h

section
variable {s : State} {f : TxOperands} {k : Nat}

theorem nextPut_sentTo {a : PutAnswer} (h : s.putAnswers[k]? = some a) :
    nextPut (sentTo f k s) = a :=
  nextPut_of_head? (by simpa [sentTo, List.head?_drop] using h)

theorem Sending.of_sentTo (h : Sending s f) (hk : k < 7 + f.data.length) :
    Sending (sentTo f k s) f := by
  obtain ⟨-, hn⟩ := txOperands_ndata h.ops
  have hlt : k < s.txFrameLen := by
    rw [h.frameLen]; omega
  exact ⟨h.state, h.ops, h.cmd, h.shape, h.frameLen, hlt, rfl⟩

/-- The move on an accepted byte `k`: the last one ends SEND (R126). -/
theorem Sending.seqStep_sentTo (h : Sending s f) (hk : k < 7 + f.data.length)
    (hput : s.putAnswers[k]? = some .accepted) :
    seqStep (sentTo f k s) = .next
      (if k + 1 = 7 + f.data.length then completeSend (sentTo f (k + 1) s)
        else sentTo f (k + 1) s) := by
  obtain ⟨-, hn⟩ := txOperands_ndata h.ops
  have hk' := h.of_sentTo hk
  have hlen : (sentTo f k s).txFrameLen = 7 + f.data.length := by
    rw [hk'.frameLen]; omega
  obtain ⟨b, hb⟩ := hk'.exists_txByte
  rw [seqStep_of_send hk'.state, hk'.step_accepted hb (nextPut_sentTo hput), hlen,
    sentByte_sentTo (s := s) (k := k) (hk'.txByte_eq.symm.trans hb)]
  rfl

/-- Below the last byte the accepted bytes leave SEND in flight. -/
theorem Sending.seqRuns_sentTo (h : Sending s f) (h0 : sentTo f 0 s = s)
    (hk : k < 7 + f.data.length) (hput : ∀ j, j < k → s.putAnswers[j]? = some .accepted) :
    SeqRuns k s (sentTo f k s) := by
  induction k with
  | zero => exact h0.symm
  | succ k ih =>
    have hstep := h.seqStep_sentTo (by omega) (hput k (by omega))
    rw [if_neg (by omega)] at hstep
    exact (ih (by omega) fun j hj => hput j (by omega)).snoc
      (busy_of_send (h.of_sentTo (by omega)).state) hstep

/-- All bytes accepted (R126). -/
theorem Sending.seqRuns_complete (h : Sending s f) (h0 : sentTo f 0 s = s)
    (hput : ∀ j, j < 7 + f.data.length → s.putAnswers[j]? = some .accepted) :
    SeqRuns (7 + f.data.length) s (completeSend (sentTo f (7 + f.data.length) s)) := by
  have hlast : 6 + f.data.length + 1 = 7 + f.data.length := by omega
  have hstep := h.seqStep_sentTo (k := 6 + f.data.length) (by omega) (hput _ (by omega))
  rw [if_pos hlast, hlast] at hstep
  rw [← hlast]
  rw [← hlast] at hstep
  exact (h.seqRuns_sentTo h0 (by omega) fun j hj => hput j (by omega)).snoc
    (busy_of_send (h.of_sentTo (by omega)).state) hstep

/-- Byte `k` rejected, all before it accepted (R127). -/
theorem Sending.seqRuns_rejected (h : Sending s f) (h0 : sentTo f 0 s = s)
    (hk : k < 7 + f.data.length) (hput : ∀ j, j < k → s.putAnswers[j]? = some .accepted)
    (hrej : s.putAnswers[k]? = some .rejected) :
    SeqRuns (k + 1) s
      (raise .send .transportWriteFailure (putRejected (sentTo f k s))) := by
  have hk' := h.of_sentTo hk
  exact (h.seqRuns_sentTo h0 hk hput).snoc (busy_of_send hk'.state)
    ((seqStep_of_send hk'.state).trans (hk'.step_rejected (nextPut_sentTo hrej)))

end

/-! ### A SEND from its start to its end -/

/-- The idle block after a SEND with all bytes accepted, these answers left (R126; log 19). -/
def afterSend (f : TxOperands) (rest : List PutAnswer) (s : State) : State :=
  { s with
    txFrameLen := 7 + f.data.length, txIdx := 0, status := .ok
    txCrc := some (crcReg s.cfg.crcPoly s.cfg.crcInit (covered s.cfg f.cmd f.addr f.len f.data))
    putAnswers := rest, linkPuts := s.linkPuts + (7 + f.data.length)
    linkOut := s.linkOut ++ frameBytes s.cfg f.cmd f.addr f.len f.data }

/-- The idle block after a SEND whose byte `k` was the first rejected (R127, R225; log 18, 19). -/
def afterRejected (f : TxOperands) (k : Nat) (rest : List PutAnswer) (s : State) : State :=
  { s with
    txFrameLen := 7 + f.data.length, txIdx := 0, status := .error .transportWriteFailure
    txCrc := none, rxCrc := none
    putAnswers := rest, linkPuts := s.linkPuts + (k + 1)
    linkOut := s.linkOut ++ (frameBytes s.cfg f.cmd f.addr f.len f.data).take k }

theorem seqRuns_send {s : State} {f : TxOperands} {rest : List PutAnswer}
    (h : sendCheck s = .ok f)
    (hput : s.putAnswers = List.replicate (7 + f.data.length) .accepted ++ rest) :
    SeqRuns (7 + f.data.length) (startSend f.ndata.toNat s) (afterSend f rest s) := by
  have hsend := sending_startSend h
  obtain ⟨-, hn⟩ := txOperands_ndata hsend.ops
  obtain ⟨-, -, hb, -⟩ := sendCheck_eq_ok.1 h
  have hidle := txState_of_idle hb
  have hans : ∀ j, j < 7 + f.data.length →
      (startSend f.ndata.toNat s).putAnswers[j]? = some .accepted := by
    intro j hj
    simp [hput, List.getElem?_append_left, hj]
  have hdrop : s.putAnswers.drop (7 + f.data.length) = rest := by
    rw [hput]; exact List.drop_left' (by simp)
  have hframe : (frameBytes s.cfg f.cmd f.addr f.len f.data).take (7 + f.data.length) =
      frameBytes s.cfg f.cmd f.addr f.len f.data :=
    List.take_of_length_le (by rw [frameBytes_length])
  have hcov : (covered s.cfg f.cmd f.addr f.len f.data).take (7 + f.data.length) =
      covered s.cfg f.cmd f.addr f.len f.data :=
    List.take_of_length_le (by rw [covered_length]; omega)
  have hlen : 5 + f.ndata.toNat + 2 = 7 + f.data.length := by omega
  have hend : completeSend (sentTo f (7 + f.data.length) (startSend f.ndata.toNat s)) =
      afterSend f rest s := by
    simp only [completeSend, sentTo, startSend, afterSend, hdrop, hframe, hcov, hlen, hidle]
  exact hend ▸ hsend.seqRuns_complete (sentTo_zero f _ s) hans

theorem seqRuns_send_rejected {s : State} {f : TxOperands} {k : Nat} {rest : List PutAnswer}
    (h : sendCheck s = .ok f) (hk : k < 7 + f.data.length)
    (hput : s.putAnswers = List.replicate k .accepted ++ .rejected :: rest) :
    SeqRuns (k + 1) (startSend f.ndata.toNat s) (afterRejected f k rest s) := by
  have hsend := sending_startSend h
  obtain ⟨-, hn⟩ := txOperands_ndata hsend.ops
  obtain ⟨-, -, hb, -⟩ := sendCheck_eq_ok.1 h
  have hidle := txState_of_idle hb
  have hans : ∀ j, j < k → (startSend f.ndata.toNat s).putAnswers[j]? = some .accepted := by
    intro j hj
    simp [hput, List.getElem?_append_left, hj]
  have hrej : (startSend f.ndata.toNat s).putAnswers[k]? = some .rejected := by
    simp [hput]
  have hdrop : (s.putAnswers.drop k).tail = rest := by
    rw [hput, List.drop_left' (by simp)]; rfl
  have hlen : 5 + f.ndata.toNat + 2 = 7 + f.data.length := by omega
  have hend : raise .send .transportWriteFailure
      (putRejected (sentTo f k (startSend f.ndata.toNat s))) = afterRejected f k rest s := by
    simp only [raise, putRejected, sentTo, startSend, afterRejected, hdrop, hlen, hidle,
      Nat.add_assoc]
  exact hend ▸ hsend.seqRuns_rejected (sentTo_zero f _ s) hk hans hrej

/-- Settles O32: the run of the sequencer, made by a machine whose host waits. -/
theorem sendEmitsTheFrame : Obligations.SendEmitsTheFrame := by
  intro s t f rest hadm hw hexec hput
  have hcheck := sendAdmitted_iff.1 hadm
  obtain ⟨hl, -⟩ := sendCheck_eq_ok.1 hcheck
  obtain rfl := eq_startSend_of_exec hadm hexec
  exact (seqRuns_send hcheck hput).runs hl hw

/-- Settles O33: the run up to the rejected byte, made by a machine whose host waits. -/
theorem sendStopsAtARejectedByte : Obligations.SendStopsAtARejectedByte := by
  intro s t f k rest hadm hw hexec hk hput
  have hcheck := sendAdmitted_iff.1 hadm
  obtain ⟨hl, -⟩ := sendCheck_eq_ok.1 hcheck
  obtain rfl := eq_startSend_of_exec hadm hexec
  exact (seqRuns_send_rejected hcheck hk hput).runs hl hw

end Sys2Proof.Machine
end

section
/-! PROOF. Every RECV ends (R160): the `LinkGet` calls that are left go down with every move. -/

namespace Sys2Proof.Machine

/-- The `LinkGet` calls a RECV in flight can still make. -/
def rxBudget (s : State) : Nat :=
  match s.rxState with
  | .idle => 0
  | .search => (s.cfg.syncCap - s.scanCnt) + (3 + 255 + 2)
  | .header => (3 - s.rxIdx) + (255 + 2)
  | .data => ((s.rxLen.getD 0).toNat - s.rxIdx) + 2
  | .ck => 2 - s.rxIdx

/-- A move of a RECV that is not its last: one `LinkGet`, and less is left. -/
def Spends (s t : State) : Prop :=
  t.rxState ≠ .idle ∧ t.linkGets = s.linkGets + 1 ∧ rxBudget t < rxBudget s

section
variable {s : State}

theorem spends_searchStep (hs : s.rxState = .search) (hc : s.scanCnt < s.cfg.syncCap)
    (a : GetAnswer) : Spends s (searchStep a (afterGet s)) := by
  have hstay : ∀ saw : Bool,
      Spends s { afterGet s with scanCnt := s.scanCnt + 1, sawSync1 := saw } := by
    intro saw
    refine ⟨fun h => absurd (hs.symm.trans h) nofun, rfl, ?_⟩
    simp only [rxBudget, afterGet, hs]
    omega
  cases a with
  | timeout => exact hstay false
  | byte b =>
    by_cases hm : (afterGet s).sawSync1 = true ∧ b = (afterGet s).cfg.sync2
    · obtain ⟨hsaw, rfl⟩ := hm
      rw [searchStep_match hsaw]
      refine ⟨nofun, rfl, ?_⟩
      simp only [rxBudget, syncFound, hs]
      omega
    · rw [searchStep_other hm]
      exact hstay _

theorem spends_headerStep (hs : s.rxState = .header) (hi : s.rxIdx < 3) (b : Byte) :
    Spends s (headerStep b (afterGet s)) := by
  have hbyte := b.isLt
  obtain h | h | h : s.rxIdx = 0 ∨ s.rxIdx = 1 ∨ s.rxIdx = 2 := by omega
  · rw [headerStep_cmd (s := afterGet s) b h]
    refine ⟨fun h => absurd (hs.symm.trans h) nofun, rfl, ?_⟩
    simp only [rxBudget, afterGet, hs]
    omega
  · rw [headerStep_addr (s := afterGet s) b h]
    refine ⟨fun h => absurd (hs.symm.trans h) nofun, rfl, ?_⟩
    simp only [rxBudget, afterGet, hs]
    omega
  · rw [headerStep_len (s := afterGet s) b h]
    by_cases hb : 0 < b.toNat
    · rw [if_pos hb]
      refine ⟨nofun, rfl, ?_⟩
      simp only [rxBudget, hs, Option.getD_some]
      omega
    · rw [if_neg hb]
      refine ⟨nofun, rfl, ?_⟩
      simp only [rxBudget, hs]
      omega

theorem spends_dataStep {len : Byte} (hs : s.rxState = .data) (hl : s.rxLen = some len)
    (hi : s.rxIdx < len.toNat) (b : Byte) : Spends s (dataStep len b (afterGet s)) := by
  by_cases hlast : s.rxIdx + 1 = len.toNat
  · rw [dataStep_last (s := afterGet s) b hlast]
    refine ⟨nofun, rfl, ?_⟩
    simp only [rxBudget, hs, hl, Option.getD_some]
    omega
  · rw [dataStep_more (s := afterGet s) b hlast]
    refine ⟨fun h => absurd (hs.symm.trans h) nofun, rfl, ?_⟩
    simp only [rxBudget, afterGet, hs, hl, Option.getD_some]
    omega

theorem RxInv.rxBudget_pos (h : RxInv s) (hs : s.rxState ≠ .idle) : 0 < rxBudget s := by
  unfold rxBudget
  obtain ⟨hst, -⟩ | ⟨hst, -⟩ | ⟨hst, hi⟩ | ⟨hst, len, hl, hi⟩ | ⟨hst, hi⟩ := h.rxIdx_range
  · exact absurd hst hs
  · simp only [hst]; omega
  · simp only [hst]; omega
  · simp only [hst]; omega
  · simp only [hst]; omega

/-- A move ends RECV with a `LinkGet` at most, or leaves less to do. -/
theorem RxInv.ends_or_spends {t : State} (h : RxInv s) (hs : s.rxState ≠ .idle)
    (ht : rxStep s = .next t) :
    (t.rxState = .idle ∧ t.linkGets ≤ s.linkGets + rxBudget s) ∨ Spends s t := by
  have hpos := h.rxBudget_pos hs
  have hone : s.linkGets + 1 ≤ s.linkGets + rxBudget s := by omega
  have hrange := h.rxIdx_range
  obtain ⟨hidle, -⟩ | ⟨-, -, rfl⟩ | ⟨hst, hc, rfl⟩ | ⟨-, -, -, rfl⟩ |
    ⟨b, -, ⟨hst, rfl⟩ | ⟨len, hst, hl, rfl⟩ | ⟨hst, hck⟩⟩ := rxStep_next ht
  · exact absurd hidle hs
  · exact .inl ⟨rfl, Nat.le_add_right _ _⟩
  · exact .inr (spends_searchStep hst hc _)
  · exact .inl ⟨rfl, hone⟩
  · exact .inr (spends_headerStep hst (by simpa [hst] using hrange) b)
  · exact .inr (spends_dataStep hst hl (by simpa [hst, hl] using hrange) b)
  · obtain ⟨h0, rfl⟩ | ⟨-, ⟨e, rfl⟩ | ⟨crc, lo, -, -, -, rfl⟩⟩ := ckStep_next hck
    · refine .inr ⟨fun h => absurd (hst.symm.trans h) nofun, rfl, ?_⟩
      have h0' : s.rxIdx = 0 := h0
      simp only [rxBudget, afterGet, hst]
      omega
    · exact .inl ⟨rfl, hone⟩
    · exact .inl ⟨rfl, hone⟩

/-- RECV in flight ends within its budget. -/
theorem RxInv.ends (h : RxInv s) (htx : s.txState = .idle) (hs : s.rxState ≠ .idle) {n : Nat}
    (hn : rxBudget s ≤ n) :
    ∃ k u, SeqRuns k s u ∧ u.busy = false ∧ u.linkGets ≤ s.linkGets + rxBudget s := by
  induction n generalizing s with
  | zero =>
    have hpos := h.rxBudget_pos hs
    omega
  | succ n ih =>
    obtain ⟨t, ht⟩ := h.exists_rxStep
    have hstep : seqStep s = .next t := (seqStep_of_idle htx).trans ht
    have htx' : t.txState = .idle := by rw [rxStep_eq_recvWrites ht]; exact htx
    obtain ⟨hidle, hgets⟩ | ⟨hbusy, hgets, hless⟩ := h.ends_or_spends hs ht
    · exact ⟨1, t, .one (busy_of_recv hs) hstep, State.busy_eq_false.2 ⟨htx', hidle⟩, hgets⟩
    · obtain ⟨k, u, hruns, hidle, hgets'⟩ := ih (h.of_rxStep ht) htx' hbusy (by omega)
      exact ⟨k + 1, u, ⟨busy_of_recv hs, t, hstep, hruns⟩, hidle, by omega⟩

end

/-- Settles O12: the budget of a RECV that has just started is the bound. -/
theorem everyRecvEnds : Obligations.EveryRecvEnds := by
  intro s t hadm hi hw hexec
  have hcheck := recvAdmitted_iff.1 hadm
  obtain rfl := eq_startRecv_of_exec hadm hexec
  obtain ⟨hl, -, hb, -⟩ := hadm
  obtain ⟨k, u, hruns, hidle, hgets⟩ := (hi.of_startRecv hcheck).rx.ends (txState_of_idle (s := s) hb)
    nofun le_rfl
  exact ⟨k, u, hruns.runs hl hw, hidle, hgets⟩

end Sys2Proof.Machine
end

section
/-! PROOF. A RECV on listed answers, part by part: the search over noise (R144 to R149), the header
(R150), the data (R152) and the two checksum bytes (R153). -/

namespace Sys2Proof.Machine

/-! ### Answers without a sync pair -/

section
variable {c : Config} {a : GetAnswer} {l : List GetAnswer}

theorem not_hasSync_tail (h : ¬HasSync c (a :: l)) : ¬HasSync c l :=
  fun ⟨i, h1, h2⟩ => h ⟨i + 1, h1, h2⟩

theorem head_ne_sync2 (h : ¬HasSync c (a :: l)) (ha : a = .byte c.sync1) :
    l.head? ≠ some (.byte c.sync2) :=
  fun hl => h ⟨0, by rw [ha]; rfl, by rw [← hl, List.head?_eq_getElem?]; rfl⟩

/-- SYNC1 alone completes no pair, the sync bytes being distinct (R10). -/
theorem not_hasSync_snoc (hc : c.sync1 ≠ c.sync2) (h : ¬HasSync c l) :
    ¬HasSync c (l ++ [.byte c.sync1]) := by
  rintro ⟨i, h1, h2⟩
  obtain hi | hi | hi : i + 1 < l.length ∨ i + 1 = l.length ∨ l.length < i + 1 := by omega
  · rw [List.getElem?_append_left (by omega)] at h1 h2
    exact h ⟨i, h1, h2⟩
  · rw [hi, List.getElem?_concat_length] at h2
    exact hc (by simpa using h2)
  · rw [List.getElem?_eq_none (by simp; omega)] at h2
    cases h2

end

theorem Config.legal_sync {c : Config} (h : c.legal = true) : c.sync1 ≠ c.sync2 := by
  simp only [Config.legal, Bool.and_eq_true, bne_iff_ne] at h
  obtain ⟨⟨⟨hsync, -⟩, -⟩, -⟩ := h
  exact hsync

/-! ### The search -/

/-- The window after these answers, from a window `saw` (R146). -/
def armedAfter (c : Config) (saw : Bool) (l : List GetAnswer) : Bool :=
  l.foldl (fun _ a => decide (a = .byte c.sync1)) saw

/-- RECV after attempts that found no pair, with these answers left. -/
def searched (l rest : List GetAnswer) (s : State) : State :=
  { s with
    scanCnt := s.scanCnt + l.length, sawSync1 := armedAfter s.cfg s.sawSync1 l
    linkIn := rest, linkGets := s.linkGets + l.length }

/-- An attempt that completes no pair arms the window exactly if it is SYNC1 (R144, R146). -/
theorem searchStep_no_match {s : State} {a : GetAnswer}
    (h : s.sawSync1 = true → a ≠ .byte s.cfg.sync2) :
    searchStep a s =
      { s with scanCnt := s.scanCnt + 1, sawSync1 := decide (a = .byte s.cfg.sync1) } := by
  cases a with
  | timeout => exact searchStep_timeout s
  | byte b =>
    rw [searchStep_other fun ⟨hsaw, hb⟩ => h hsaw (hb ▸ rfl)]
    simp only [GetAnswer.byte.injEq]
    rfl

theorem searched_cons (a : GetAnswer) (l rest : List GetAnswer) (s : State) :
    searched l rest (searched [a] (l ++ rest) s) = searched (a :: l) rest s := by
  simp only [searched, armedAfter, List.foldl_cons, List.foldl_nil, List.length_cons, List.length_nil,
    Nat.add_assoc, Nat.add_comm 1, Nat.zero_add]

theorem armedAfter_snoc (c : Config) (saw : Bool) (l : List GetAnswer) :
    armedAfter c saw (l ++ [.byte c.sync1]) = true := by
  simp [armedAfter]

/-- Answers without a pair, within the cap. -/
theorem seqRuns_search {s : State} {l rest : List GetAnswer} (ht : s.txState = .idle)
    (hr : s.rxState = .search) (hc : s.scanCnt + l.length ≤ s.cfg.syncCap)
    (hin : s.linkIn = l ++ rest) (hl : ¬HasSync s.cfg l)
    (hsaw : s.sawSync1 = true → l.head? ≠ some (.byte s.cfg.sync2)) :
    SeqRuns l.length s (searched l rest s) := by
  induction l generalizing s with
  | nil =>
    change s = _
    rw [List.nil_append] at hin
    rw [← hin]
    rfl
  | cons a l ih =>
    rw [List.length_cons] at hc
    have hno : s.sawSync1 = true → a ≠ .byte s.cfg.sync2 := fun h ha => hsaw h (by rw [ha]; rfl)
    have hstep : seqStep s = .next (searched [a] (l ++ rest) s) :=
      (seqStep_search ht hr (by omega) hin).trans
        (congrArg _ (searchStep_no_match (s := took (l ++ rest) s) hno))
    have hc' : s.scanCnt + 1 + l.length ≤ s.cfg.syncCap := by omega
    have hrest := ih (s := searched [a] (l ++ rest) s) ht hr hc' rfl (not_hasSync_tail hl)
      fun h => head_ne_sync2 hl (of_decide_eq_true h)
    rw [searched_cons] at hrest
    exact ⟨busy_of_recv (by simp [hr]), _, hstep, hrest⟩

/-- RECV that has just found the sync pair, on attempt `n` of these (R149). -/
def synced (n : Nat) (rest : List GetAnswer) (s : State) : State :=
  syncFound { s with
    scanCnt := s.scanCnt + n, sawSync1 := true, linkIn := rest, linkGets := s.linkGets + n }

/-- The pair behind noise, within the cap: noise and SYNC1 hold no pair, then SYNC2 is the match. -/
theorem seqRuns_sync {s : State} {noise rest : List GetAnswer} (hl : s.cfg.legal = true)
    (ht : s.txState = .idle) (hr : s.rxState = .search) (hsaw : s.sawSync1 = false)
    (hin : s.linkIn = noise ++ .byte s.cfg.sync1 :: .byte s.cfg.sync2 :: rest)
    (hno : ¬HasSync s.cfg noise) (hc : s.scanCnt + (noise.length + 2) ≤ s.cfg.syncCap) :
    SeqRuns (noise.length + 2) s (synced (noise.length + 2) rest s) := by
  set l := noise ++ [GetAnswer.byte s.cfg.sync1] with hldef
  have hlen : l.length = noise.length + 1 := by simp [hldef]
  have hin' : s.linkIn = l ++ .byte s.cfg.sync2 :: rest := by rw [hin, hldef, List.append_assoc]; rfl
  have hsearch := seqRuns_search ht hr (by omega) hin' (not_hasSync_snoc (Config.legal_sync hl) hno)
    (by rw [hsaw]; nofun)
  have harmed : armedAfter s.cfg s.sawSync1 l = true := armedAfter_snoc _ _ _
  have hcount : s.scanCnt + l.length < s.cfg.syncCap := by omega
  have hstep : seqStep (searched l (.byte s.cfg.sync2 :: rest) s) =
      .next (synced (noise.length + 2) rest s) := by
    refine (seqStep_search (s := searched l (.byte s.cfg.sync2 :: rest) s) ht hr hcount rfl).trans
      (congrArg _ ((searchStep_match
        (s := took rest (searched l (.byte s.cfg.sync2 :: rest) s)) harmed).trans ?_))
    simp only [synced, took, searched, harmed, hlen, Nat.add_assoc, Nat.reduceAdd]
  rw [hlen] at hsearch
  exact hsearch.snoc (busy_of_recv (by simp [searched, hr])) hstep

/-- Settles O38: from the state RECV starts in. -/
theorem syncFoundWithinTheCap : Obligations.SyncFoundWithinTheCap := by
  intro s t noise rest hadm hw hexec hin hno hc
  obtain rfl := eq_startRecv_of_exec hadm hexec
  obtain ⟨hl, -, hb, -⟩ := hadm
  have hruns := seqRuns_sync (s := startRecv s) hl (txState_of_idle (s := s) hb) rfl rfl hin hno
    ((Nat.zero_add _).trans_le hc)
  have hend : synced (noise.length + 2) rest (startRecv s) = { startRecv s with
      scanCnt := noise.length + 2, sawSync1 := true, rxState := .header
      rxCrc := some (crcReg s.cfg.crcPoly s.cfg.crcInit [s.cfg.sync1, s.cfg.sync2])
      linkIn := rest, linkGets := s.linkGets + (noise.length + 2) } := by
    simp only [synced, syncFound, startRecv, Nat.zero_add]
  exact hend ▸ hruns.runs hl hw

/-- Settles O39: the answers up to the cap, then the move that raises the error (log 17). -/
theorem capEndsTheSearch : Obligations.CapEndsTheSearch := by
  intro s t hadm hw hexec hcap hno
  obtain rfl := eq_startRecv_of_exec hadm hexec
  obtain ⟨hl, -, hb, -⟩ := hadm
  have ht : (startRecv s).txState = .idle := txState_of_idle (s := s) hb
  set l := s.linkIn.take s.cfg.syncCap with hldef
  have hlen : l.length = s.cfg.syncCap := by rw [hldef, List.length_take, Nat.min_eq_left hcap]
  have hcount : (startRecv s).scanCnt + l.length = s.cfg.syncCap := by
    rw [hlen, startRecv_scanCnt, Nat.zero_add]
  have hruns := seqRuns_search (s := startRecv s) (rest := s.linkIn.drop s.cfg.syncCap) ht rfl
    hcount.le (List.take_append_drop _ _).symm hno nofun
  have hstep := seqStep_cap (s := searched l (s.linkIn.drop s.cfg.syncCap) (startRecv s)) ht rfl
    hcount.ge
  rw [hlen] at hruns
  refine ⟨_, (hruns.snoc (busy_of_recv nofun) hstep).runs hl hw, rfl, idle_of_rxState hb rfl rfl, rfl,
    noResult_raiseRecv _ _, hcount, rfl, ?_, rfl⟩
  exact congrArg (s.linkGets + ·) hlen

/-! ### A frame after the sync pair -/

section
variable {s : State} {cmd addr len b : Byte} {crc : Code} {rest : List GetAnswer}

/-- RECV after the command byte (R150). -/
def cmdRead (cmd : Byte) (crc : Code) (rest : List GetAnswer) (s : State) : State :=
  { s with
    rxCmd := some cmd, rxIdx := 1, rxCrc := some (byteStep s.cfg.crcPoly crc cmd)
    linkIn := rest, linkGets := s.linkGets + 1 }

/-- RECV after the address byte (R150). -/
def addrRead (addr : Byte) (crc : Code) (rest : List GetAnswer) (s : State) : State :=
  { s with
    rxAddr := some addr, rxIdx := 2, rxCrc := some (byteStep s.cfg.crcPoly crc addr)
    linkIn := rest, linkGets := s.linkGets + 1 }

/-- RECV after the length byte, which chooses the next phase (R150). -/
def lenRead (len : Byte) (crc : Code) (rest : List GetAnswer) (s : State) : State :=
  { s with
    rxLen := some len, rxIdx := 0, rxCrc := some (byteStep s.cfg.crcPoly crc len)
    rxState := if 0 < len.toNat then .data else .ck
    linkIn := rest, linkGets := s.linkGets + 1 }

theorem seqStep_cmd (ht : s.txState = .idle) (hr : s.rxState = .header) (hi : s.rxIdx = 0)
    (hcrc : s.rxCrc = some crc) (hin : s.linkIn = .byte cmd :: rest) :
    seqStep s = .next (cmdRead cmd crc rest s) := by
  rw [seqStep_header ht hr hin, headerStep_cmd (s := took rest s) cmd hi]
  simp only [cmdRead, took, hcrc, Option.map_some]

theorem seqStep_addr (ht : s.txState = .idle) (hr : s.rxState = .header) (hi : s.rxIdx = 1)
    (hcrc : s.rxCrc = some crc) (hin : s.linkIn = .byte addr :: rest) :
    seqStep s = .next (addrRead addr crc rest s) := by
  rw [seqStep_header ht hr hin, headerStep_addr (s := took rest s) addr hi]
  simp only [addrRead, took, hcrc, Option.map_some]

theorem seqStep_len (ht : s.txState = .idle) (hr : s.rxState = .header) (hi : s.rxIdx = 2)
    (hcrc : s.rxCrc = some crc) (hin : s.linkIn = .byte len :: rest) :
    seqStep s = .next (lenRead len crc rest s) := by
  rw [seqStep_header ht hr hin, headerStep_len (s := took rest s) len hi]
  simp only [lenRead, took, hcrc, Option.map_some]

/-- RECV after the header. -/
def headerRead (cmd addr len : Byte) (crc : Code) (rest : List GetAnswer) (s : State) : State :=
  { s with
    rxCmd := some cmd, rxAddr := some addr, rxLen := some len, rxIdx := 0
    rxCrc := some (crcReg s.cfg.crcPoly crc [cmd, addr, len])
    rxState := if 0 < len.toNat then .data else .ck
    linkIn := rest, linkGets := s.linkGets + 3 }

theorem seqRuns_header (ht : s.txState = .idle) (hr : s.rxState = .header) (hi : s.rxIdx = 0)
    (hcrc : s.rxCrc = some crc) (hin : s.linkIn = .byte cmd :: .byte addr :: .byte len :: rest) :
    SeqRuns 3 s (headerRead cmd addr len crc rest s) := by
  have hbusy : s.busy = true := busy_of_recv (by simp [hr])
  exact ⟨hbusy, _, seqStep_cmd ht hr hi hcrc hin, hbusy, _,
    seqStep_addr (s := cmdRead cmd crc _ s) ht hr rfl rfl rfl, hbusy, _,
    seqStep_len (s := addrRead addr _ _ (cmdRead cmd crc _ s)) ht hr rfl rfl rfl, rfl⟩

/-- RECV after a data byte that is not the last (R152). -/
def dataTaken (b : Byte) (crc : Code) (rest : List GetAnswer) (s : State) : State :=
  { s with
    rxData := s.rxData.store s.cfg.maxLen s.rxIdx b, rxIdx := s.rxIdx + 1
    rxCrc := some (byteStep s.cfg.crcPoly crc b), linkIn := rest, linkGets := s.linkGets + 1 }

/-- RECV after the last data byte, these bytes taken from its index on (R152). -/
def dataRead (data : List Byte) (crc : Code) (rest : List GetAnswer) (s : State) : State :=
  { s with
    rxData := s.rxData.storeFrom s.cfg.maxLen s.rxIdx data
    rxCrc := some (crcReg s.cfg.crcPoly crc data)
    rxIdx := 0, rxState := .ck, linkIn := rest, linkGets := s.linkGets + data.length }

theorem seqStep_dataByte (ht : s.txState = .idle) (hr : s.rxState = .data) (hl : s.rxLen = some len)
    (hi : s.rxIdx + 1 ≠ len.toNat) (hcrc : s.rxCrc = some crc) (hin : s.linkIn = .byte b :: rest) :
    seqStep s = .next (dataTaken b crc rest s) := by
  rw [seqStep_data ht hr hl hin, dataStep_more (s := took rest s) b hi]
  simp only [dataTaken, took, hcrc, Option.map_some]

theorem seqStep_lastByte (ht : s.txState = .idle) (hr : s.rxState = .data) (hl : s.rxLen = some len)
    (hi : s.rxIdx + 1 = len.toNat) (hcrc : s.rxCrc = some crc) (hin : s.linkIn = .byte b :: rest) :
    seqStep s = .next (dataRead [b] crc rest s) := by
  rw [seqStep_data ht hr hl hin, dataStep_last (s := took rest s) b hi]
  simp only [took, hcrc, Option.map_some]
  rfl

theorem dataRead_cons (b : Byte) (data : List Byte) (crc : Code) (rest rest' : List GetAnswer)
    (s : State) :
    dataRead data (byteStep s.cfg.crcPoly crc b) rest (dataTaken b crc rest' s) =
      dataRead (b :: data) crc rest s := by
  simp only [dataRead, dataTaken, Buffer.storeFrom, crcReg_cons, List.length_cons, Nat.add_assoc,
    Nat.add_comm 1]

theorem seqRuns_data {data : List Byte} (ht : s.txState = .idle) (hr : s.rxState = .data)
    (hl : s.rxLen = some len) (hn : s.rxIdx + data.length = len.toNat) (hne : s.rxIdx < len.toNat)
    (hcrc : s.rxCrc = some crc) (hin : s.linkIn = data.map GetAnswer.byte ++ rest) :
    SeqRuns data.length s (dataRead data crc rest s) := by
  have hbusy : s.busy = true := busy_of_recv (by simp [hr])
  induction data generalizing s crc with
  | nil =>
    rw [List.length_nil] at hn
    omega
  | cons b data ih =>
    rw [List.length_cons] at hn
    by_cases hlast : data = []
    · subst hlast
      exact .one hbusy (seqStep_lastByte ht hr hl hn hcrc hin)
    · have hpos : 0 < data.length := List.length_pos_of_ne_nil hlast
      have hstep := seqStep_dataByte (b := b) (rest := data.map GetAnswer.byte ++ rest) ht hr hl
        (by omega) hcrc hin
      have hidx : s.rxIdx + 1 + data.length = len.toNat := by omega
      have hidx' : s.rxIdx + 1 < len.toNat := by omega
      have hrest := ih (s := dataTaken b crc (data.map GetAnswer.byte ++ rest) s) ht hr hl hidx hidx'
        rfl rfl hbusy
      rw [dataRead_cons] at hrest
      exact ⟨hbusy, _, hstep, hrest⟩

/-- RECV before its tests, both checksum bytes stored (R153). -/
def ckRead (lo hi : Byte) (rest : List GetAnswer) (s : State) : State :=
  { s with
    rxCkLo := some lo, rxCkHi := some hi, rxIdx := 2, linkIn := rest, linkGets := s.linkGets + 2 }

theorem seqRuns_ck {lo hi : Byte} (ht : s.txState = .idle) (hr : s.rxState = .ck) (hi0 : s.rxIdx = 0)
    (hcrc : s.rxCrc = some crc) (hcmd : s.rxCmd = some cmd) (he : s.ExpectSet)
    (hin : s.linkIn = .byte lo :: .byte hi :: rest) :
    SeqRuns 2 s (finishRecv crc lo hi cmd (s.expectCmd.getD 0) (ckRead lo hi rest s)) := by
  have hbusy : s.busy = true := busy_of_recv (by simp [hr])
  have hfirst : seqStep s = .next
      { took (.byte hi :: rest) s with rxCkLo := some lo, rxIdx := 1 } :=
    (seqStep_ck ht hr hin).trans (ckStep_first (s := took (.byte hi :: rest) s) lo hi0)
  exact ⟨hbusy, _, hfirst, hbusy, _,
    seqStep_ck_second (s := { took (.byte hi :: rest) s with rxCkLo := some lo, rxIdx := 1 })
      ht hr rfl rfl hcrc rfl hcmd he, rfl⟩

end

end Sys2Proof.Machine
end

section
/-! PROOF. A whole RECV on listed answers, and the laws of 42_deserializer.md section 6: recovery
behind noise, the unexpected frame, corruption; and the round trip of 41_serializer.md section 3. -/

namespace Sys2Proof.Machine

/-! ### Noise, a frame, the tests -/

/-- The bytes of one frame as they come over the link, the checksum bytes whatever they are. -/
structure WireFrame where
  cmd : Byte
  addr : Byte
  len : Byte
  data : List Byte
  lo : Byte
  hi : Byte

/-- The bytes of R70 in their order. -/
def WireFrame.bytes (c : Config) (w : WireFrame) : List Byte :=
  covered c w.cmd w.addr w.len w.data ++ [w.lo, w.hi]

/-- RX_CRC over the covered bytes (R71). -/
def WireFrame.crc (c : Config) (w : WireFrame) : Code :=
  crcReg c.crcPoly c.crcInit (covered c w.cmd w.addr w.len w.data)

/-- RECV after the data, its header registers set and RX_CRC over the frame's bytes (R150, R152). -/
def bodyRead (w : WireFrame) (crc : Code) (rest : List GetAnswer) (s : State) : State :=
  { s with
    rxCmd := some w.cmd, rxAddr := some w.addr, rxLen := some w.len
    rxData := s.rxData.storeFrom s.cfg.maxLen 0 w.data
    rxCrc := some (crcReg s.cfg.crcPoly crc ([w.cmd, w.addr, w.len] ++ w.data))
    rxIdx := 0, rxState := .ck, linkIn := rest, linkGets := s.linkGets + (3 + w.data.length) }

theorem seqRuns_body {s : State} {w : WireFrame} {crc : Code} {rest : List GetAnswer}
    (ht : s.txState = .idle) (hr : s.rxState = .header) (hi : s.rxIdx = 0) (hcrc : s.rxCrc = some crc)
    (hn : w.data.length = w.len.toNat)
    (hin : s.linkIn = .byte w.cmd :: .byte w.addr :: .byte w.len :: (w.data.map .byte ++ rest)) :
    SeqRuns (3 + w.data.length) s (bodyRead w crc rest s) := by
  have hheader := seqRuns_header ht hr hi hcrc hin
  by_cases hpos : 0 < w.len.toNat
  · have hend : dataRead w.data (crcReg s.cfg.crcPoly crc [w.cmd, w.addr, w.len]) rest
        (headerRead w.cmd w.addr w.len crc (w.data.map .byte ++ rest) s) = bodyRead w crc rest s := by
      simp only [dataRead, headerRead, bodyRead, crcReg_append, Nat.add_assoc]
    have hdata := seqRuns_data
      (s := headerRead w.cmd w.addr w.len crc (w.data.map .byte ++ rest) s) (data := w.data)
      ht (if_pos hpos) rfl ((Nat.zero_add _).trans hn) hpos rfl rfl
    exact hheader.trans (hend ▸ hdata)
  · have hnil : w.data = [] := List.eq_nil_of_length_eq_zero (by omega)
    have hend : headerRead w.cmd w.addr w.len crc (w.data.map .byte ++ rest) s =
        bodyRead w crc rest s := by
      simp only [headerRead, bodyRead, hnil, if_neg hpos]
      rfl
    rw [hnil]
    exact hend ▸ hheader

/-- The answers of a frame after its sync pair, and what follows it. -/
def WireFrame.afterSync (w : WireFrame) (rest : List GetAnswer) : List GetAnswer :=
  .byte w.cmd :: .byte w.addr :: .byte w.len ::
    (w.data.map .byte ++ .byte w.lo :: .byte w.hi :: rest)

theorem WireFrame.bytes_map_append (c : Config) (w : WireFrame) (rest : List GetAnswer) :
    (w.bytes c).map .byte ++ rest = .byte c.sync1 :: .byte c.sync2 :: w.afterSync rest := by
  simp [WireFrame.bytes, WireFrame.afterSync, covered, header]

/-- A frame from behind its sync pair to the tests (R150 to R157). -/
theorem seqRuns_afterSync {s : State} {w : WireFrame} {crc : Code} {rest : List GetAnswer}
    (ht : s.txState = .idle) (hr : s.rxState = .header) (hi : s.rxIdx = 0) (hcrc : s.rxCrc = some crc)
    (he : s.ExpectSet) (hn : w.data.length = w.len.toNat) (hin : s.linkIn = w.afterSync rest) :
    SeqRuns (3 + w.data.length + 2) s
      (finishRecv (crcReg s.cfg.crcPoly crc ([w.cmd, w.addr, w.len] ++ w.data)) w.lo w.hi w.cmd
        (s.expectCmd.getD 0)
        (ckRead w.lo w.hi rest (bodyRead w crc (.byte w.lo :: .byte w.hi :: rest) s))) :=
  (seqRuns_body ht hr hi hcrc hn hin).trans
    (seqRuns_ck (s := bodyRead w crc (.byte w.lo :: .byte w.hi :: rest) s) ht rfl rfl rfl rfl he rfl)

/-- RECV before its tests: the frame found behind `n` answers is in its registers (R153). -/
def received (n : Nat) (w : WireFrame) (rest : List GetAnswer) (s : State) : State :=
  { s with
    rxValid := false, scanCnt := n + 2, sawSync1 := true, rxState := .ck, rxIdx := 2
    rxCmd := some w.cmd, rxAddr := some w.addr, rxLen := some w.len
    rxData := Buffer.storeFrom s.cfg.maxLen [] 0 w.data
    rxCrc := some (w.crc s.cfg), rxCkLo := some w.lo, rxCkHi := some w.hi
    linkIn := rest, linkGets := s.linkGets + (n + 7 + w.data.length) }

/-- RX_CRC over the sync pair and then over the rest of the header and the data (R71, R149). -/
theorem WireFrame.crc_after_sync (c : Config) (w : WireFrame) :
    crcReg c.crcPoly (crcReg c.crcPoly c.crcInit [c.sync1, c.sync2])
      ([w.cmd, w.addr, w.len] ++ w.data) = w.crc c :=
  (crcReg_append c.crcPoly c.crcInit [c.sync1, c.sync2] _).symm

theorem ckRead_bodyRead_synced (n : Nat) (w : WireFrame) (rest after frame : List GetAnswer)
    (s : State) :
    ckRead w.lo w.hi rest (bodyRead w (crcReg s.cfg.crcPoly s.cfg.crcInit [s.cfg.sync1, s.cfg.sync2])
      after (synced (n + 2) frame (startRecv s))) = received n w rest s := by
  have hgets : s.linkGets + (n + 7 + w.data.length) =
      s.linkGets + (n + 2) + (3 + w.data.length) + 2 := by omega
  simp only [ckRead, bodyRead, synced, syncFound, startRecv, received, WireFrame.crc_after_sync, hgets,
    Nat.zero_add]

/-- A RECV from its start through noise and a frame to its tests (R142 to R157). -/
theorem seqRuns_recv {s : State} {noise rest : List GetAnswer} {w : WireFrame}
    (h : recvCheck s = .ok ()) (hn : w.data.length = w.len.toNat)
    (hin : s.linkIn = noise ++ (w.bytes s.cfg).map .byte ++ rest) (hno : ¬HasSync s.cfg noise)
    (hc : noise.length + 2 ≤ s.cfg.syncCap) :
    SeqRuns (noise.length + 7 + w.data.length) (startRecv s)
      (finishRecv (w.crc s.cfg) w.lo w.hi w.cmd (s.expectCmd.getD 0)
        (received noise.length w rest s)) := by
  obtain ⟨hl, -, hb, he⟩ := recvCheck_eq_ok.1 h
  have ht : (startRecv s).txState = .idle := txState_of_idle (s := s) hb
  rw [List.append_assoc, w.bytes_map_append] at hin
  have hsync := seqRuns_sync (s := startRecv s) hl ht rfl rfl hin hno ((Nat.zero_add _).trans_le hc)
  have hframe := seqRuns_afterSync
    (s := synced (noise.length + 2) (w.afterSync rest) (startRecv s)) ht rfl rfl rfl he hn rfl
  have hcount : noise.length + 7 + w.data.length =
      noise.length + 2 + (3 + w.data.length + 2) := by omega
  rw [hcount, ← w.crc_after_sync s.cfg, ← ckRead_bodyRead_synced noise.length w rest
    (.byte w.lo :: .byte w.hi :: rest) (w.afterSync rest) s]
  exact hsync.trans hframe

/-! ### What the tests make of it -/

section
variable {s : State} {noise rest : List GetAnswer} {w : WireFrame}

/-- The two bytes behind the frame pass the test of R154 exactly if they are the code's. -/
theorem WireFrame.passes_iff (c : Config) (w : WireFrame) :
    checksumOk (w.crc c) w.lo w.hi = true ↔
      [w.lo, w.hi] = ckBytes c (covered c w.cmd w.addr w.len w.data) := by
  rw [checksumOk_iff]
  simp [ckBytes, WireFrame.crc, crc16]

/-- A right checksum and an expected command (R157). -/
theorem seqRuns_recv_ok (h : recvCheck s = .ok ()) (hn : w.data.length = w.len.toNat)
    (hin : s.linkIn = noise ++ (w.bytes s.cfg).map .byte ++ rest) (hno : ¬HasSync s.cfg noise)
    (hc : noise.length + 2 ≤ s.cfg.syncCap)
    (hok : [w.lo, w.hi] = ckBytes s.cfg (covered s.cfg w.cmd w.addr w.len w.data))
    (he : s.Expects w.cmd) :
    SeqRuns (noise.length + 7 + w.data.length) (startRecv s)
      (completeRecv (received noise.length w rest s)) := by
  have hruns := seqRuns_recv h hn hin hno hc
  rwa [finishRecv_ok (s := received noise.length w rest s) ((w.passes_iff s.cfg).2 hok)
    ((commandExpected_iff (expectSet_of_expects he)).2 he)] at hruns

/-- A right checksum and another command (R156). -/
theorem seqRuns_recv_mismatch (h : recvCheck s = .ok ()) (hn : w.data.length = w.len.toNat)
    (hin : s.linkIn = noise ++ (w.bytes s.cfg).map .byte ++ rest) (hno : ¬HasSync s.cfg noise)
    (hc : noise.length + 2 ≤ s.cfg.syncCap)
    (hok : [w.lo, w.hi] = ckBytes s.cfg (covered s.cfg w.cmd w.addr w.len w.data))
    (he : ¬s.Expects w.cmd) :
    SeqRuns (noise.length + 7 + w.data.length) (startRecv s)
      (raise .recv .protocolMismatch (received noise.length w rest s)) := by
  have hruns := seqRuns_recv h hn hin hno hc
  obtain ⟨-, -, -, hset⟩ := recvCheck_eq_ok.1 h
  have hnot := Bool.eq_false_iff.2 fun hexp => he ((commandExpected_iff hset).1 hexp)
  rwa [finishRecv_mismatch (s := received noise.length w rest s) ((w.passes_iff s.cfg).2 hok)
    hnot] at hruns

/-- A wrong checksum, whatever was expected (R155). -/
theorem seqRuns_recv_corrupt (h : recvCheck s = .ok ()) (hn : w.data.length = w.len.toNat)
    (hin : s.linkIn = noise ++ (w.bytes s.cfg).map .byte ++ rest) (hno : ¬HasSync s.cfg noise)
    (hc : noise.length + 2 ≤ s.cfg.syncCap)
    (hbad : [w.lo, w.hi] ≠ ckBytes s.cfg (covered s.cfg w.cmd w.addr w.len w.data)) :
    SeqRuns (noise.length + 7 + w.data.length) (startRecv s)
      (raise .recv .frameCorruption (received noise.length w rest s)) := by
  have hruns := seqRuns_recv h hn hin hno hc
  have hnot := Bool.eq_false_iff.2 fun hok => hbad ((w.passes_iff s.cfg).1 hok)
  rwa [finishRecv_corrupt _ _ _ hnot] at hruns

end

/-- The frame of R70 as it comes over the link. -/
def sentFrame (c : Config) (cmd addr len : Byte) (data : List Byte) : WireFrame :=
  ⟨cmd, addr, len, data, lo8 (crc16 c (covered c cmd addr len data)),
    hi8 (crc16 c (covered c cmd addr len data))⟩

theorem not_hasSync_nil (c : Config) : ¬HasSync c [] := nofun

/-- The result registers after a delivered frame. -/
theorem rxHolds_received (n : Nat) (w : WireFrame) (rest : List GetAnswer) (s : State) :
    (completeRecv (received n w rest s)).RxHolds w.cmd w.addr w.len w.data :=
  ⟨rfl, rfl, rfl, (Buffer.Holds.nil s.cfg.maxLen).storeFrom⟩

/-- Settles O46: the frame of R70 carries its own checksum bytes. -/
theorem noiseThenFrameDelivered : Obligations.NoiseThenFrameDelivered := by
  intro s t noise rest cmd addr len data hadm hw hexec hn he hin hno hc
  have hcheck := recvAdmitted_iff.1 hadm
  obtain rfl := eq_startRecv_of_exec hadm hexec
  obtain ⟨hl, -, hb, -⟩ := hadm
  have hruns := seqRuns_recv_ok (w := sentFrame s.cfg cmd addr len data) hcheck hn hin hno hc rfl he
  exact ⟨_, hruns.runs hl hw, rfl, rfl, idle_of_rxState hb rfl rfl, rfl, rxHolds_received _ _ _ _,
    rfl, rfl, rfl⟩

/-- Settles O47: no noise, and a command that EXPECT does not accept. -/
theorem unexpectedFrameConsumedWhole : Obligations.UnexpectedFrameConsumedWhole := by
  intro s t rest cmd addr len e data hadm hw hexec hcap hn hany hsome hne hin
  have hcheck := recvAdmitted_iff.1 hadm
  obtain rfl := eq_startRecv_of_exec hadm hexec
  obtain ⟨hl, -, hb, -⟩ := hadm
  have he : ¬s.Expects cmd := by
    rintro (h | h)
    · simp [hany] at h
    · exact hne (Option.some.inj (hsome.symm.trans h)).symm
  have hruns := seqRuns_recv_mismatch (w := sentFrame s.cfg cmd addr len data) (noise := []) hcheck hn
    hin (not_hasSync_nil _) hcap rfl he
  rw [List.length_nil, Nat.zero_add] at hruns
  exact ⟨_, hruns.runs hl hw, rfl, rfl, noResult_raiseRecv _ _,
    idle_of_rxState hb rfl rfl, rfl⟩

/-! ### One changed byte -/

/-- A changed byte changes the code (the corruption law, from OneChangedByteChangesTheCode). -/
theorem crc16_set_ne {c : Config} (hp : c.crcPoly.getLsbD 0 = true) {s : List Byte} {k : Nat}
    {b : Byte} (hk : k < s.length) (hb : s[k]? ≠ some b) : crc16 c (s.set k b) ≠ crc16 c s := by
  have hne : b ≠ s[k] := fun h => hb (by rw [List.getElem?_eq_getElem hk, h])
  have hsplit : s.take k ++ s[k] :: s.drop (k + 1) = s := by
    rw [List.getElem_cons_drop, List.take_append_drop]
  have h := oneChangedByteChangesTheCode c (s.take k) (s.drop (k + 1)) b s[k] hp hne
  rwa [hsplit, ← List.set_eq_take_cons_drop b hk] at h

/-- A change of COMMAND, ADDRESS or a data byte leaves a frame of the same LENGTH. -/
theorem covered_set (c : Config) (cmd addr len : Byte) (data : List Byte) {k : Nat} (b : Byte)
    (hk : k = 2 ∨ k = 3 ∨ (5 ≤ k ∧ k < 5 + data.length)) :
    ∃ cmd' addr' data', data'.length = data.length ∧
      (covered c cmd addr len data).set k b = covered c cmd' addr' len data' := by
  obtain rfl | rfl | ⟨h5, -⟩ := hk
  · exact ⟨b, addr, data, rfl, rfl⟩
  · exact ⟨cmd, b, data, rfl, rfl⟩
  · obtain ⟨j, rfl⟩ : ∃ j, k = j + 5 := ⟨k - 5, by omega⟩
    exact ⟨cmd, addr, data.set j b, List.length_set, rfl⟩

/-- Settles O48: the changed frame is a frame on the link with the checksum bytes of another. -/
theorem changedByteIsCorruption : Obligations.ChangedByteIsCorruption := by
  intro s t rest cmd addr len data k b hadm hw hexec hcap hp hn hk hb hin
  have hcheck := recvAdmitted_iff.1 hadm
  obtain rfl := eq_startRecv_of_exec hadm hexec
  obtain ⟨hl, -, hidle, -⟩ := hadm
  set cov := covered s.cfg cmd addr len data with hcov
  have hlt : k < cov.length := by rw [hcov, covered_length]; omega
  have hcode : crc16 s.cfg (cov.set k b) ≠ crc16 s.cfg cov :=
    crc16_set_ne hp hlt (by rwa [frameBytes, List.getElem?_append_left hlt] at hb)
  obtain ⟨cmd', addr', data', hlen, hset⟩ := covered_set s.cfg cmd addr len data b hk
  rw [frameBytes, List.set_append_left _ _ hlt] at hin
  rw [← hcov] at hset
  rw [hset] at hin hcode
  have hbad : ckBytes s.cfg cov ≠ ckBytes s.cfg (covered s.cfg cmd' addr' len data') := by
    intro h
    simp only [ckBytes, List.cons.injEq] at h
    obtain ⟨hlo, hhi, -⟩ := h
    exact hcode (code_eq_of_halves hlo hhi).symm
  have hruns := seqRuns_recv_corrupt (noise := []) (rest := rest)
    (w := ⟨cmd', addr', len, data', lo8 (crc16 s.cfg cov), hi8 (crc16 s.cfg cov)⟩) hcheck
    (hlen.trans hn) hin (not_hasSync_nil _) hcap hbad
  simp only [List.length_nil, Nat.zero_add, hlen] at hruns
  exact ⟨_, hruns.runs hl hw, rfl, rfl, noResult_raiseRecv _ _,
    idle_of_rxState hidle rfl rfl, rfl⟩

/-! ### The round trip -/

/-- Settles O49: the frame SEND leaves on the link is one RECV ANY delivers. -/
theorem roundTrip : Obligations.RoundTrip := by
  intro s s1 r r1 f pa rest hs hnd hws hexecs hput hr hcfg hany hcap hwr hexecr
  have hscheck := sendAdmitted_iff.1 hs
  have hrcheck := recvAdmitted_iff.1 hr
  obtain rfl := eq_startSend_of_exec hs hexecs
  obtain rfl := eq_startRecv_of_exec hr hexecr
  obtain ⟨hsl, -, -, hcmd, haddr, hlen, -, hn, hdata, -, hmax, -⟩ := hs
  obtain ⟨hrl, -⟩ := hr
  have hn' : f.data.length = f.len.toNat := hnd ▸ hn
  refine ⟨_, frameBytes s.cfg f.cmd f.addr f.len f.data, (seqRuns_send hscheck hput).runs hsl hws,
    rfl, rfl, fun hin => ?_⟩
  rw [← hcfg] at hin hmax
  have hruns := seqRuns_recv_ok (w := sentFrame r.cfg f.cmd f.addr f.len f.data) (noise := []) hrcheck
    hn' hin (not_hasSync_nil _) hcap rfl (.inl hany)
  rw [List.length_nil, Nat.zero_add] at hruns
  obtain ⟨-, -, -, hheld⟩ := rxHolds_received 0 (sentFrame r.cfg f.cmd f.addr f.len f.data) rest r
  refine ⟨_, hruns.runs hrl hwr, rfl, rfl, hcmd.symm, haddr.symm, hlen.symm, fun i hi => ?_, rfl⟩
  exact (hheld.read (hi.trans_le hmax)).trans (hdata i (hnd ▸ hi)).symm

end Sys2Proof.Machine
end

section
/-! PROOF. Blocking host calls (R11, R64): the register read of 43_frame_commands.md section 2 and the
write-lock bracket of 48_host_conventions.md section 2. -/

namespace Sys2Proof.Machine

/-! ### An operation from its start to its end -/

theorem blocking_eq {i : Instr} {s u t : State} {k : Nat} (hexec : exec i s = .next u)
    (hruns : SeqRuns k u t) (hidle : t.busy = false) (hk : k ≤ 5 + 255 + 2) :
    blocking i s = .next t := by
  rw [blocking, hexec, andThen_next]
  exact hruns.runToIdle_eq hidle (hk.trans (Nat.le_add_left _ _))

/-- What every operation on the link needs (R10, R31, R251). -/
structure Ready (s : State) : Prop where
  legal : s.cfg.legal = true
  linkOpen : s.linkOpen = true
  idle : s.busy = false

/-- From `s` to `t` these bytes have left the block and these answers are left; `t` is idle, and its
parameters, its link and what has arrived are as before. -/
structure Wrote (out : List Byte) (rest : List PutAnswer) (s t : State) : Prop where
  cfg : t.cfg = s.cfg
  linkOpen : t.linkOpen = s.linkOpen
  idle : t.busy = false
  linkOut : t.linkOut = s.linkOut ++ out
  putAnswers : t.putAnswers = rest
  linkIn : t.linkIn = s.linkIn

theorem Wrote.ready {out : List Byte} {rest : List PutAnswer} {s t : State} (h : Wrote out rest s t)
    (hs : Ready s) : Ready t :=
  ⟨h.cfg ▸ hs.legal, h.linkOpen.trans hs.linkOpen, h.idle⟩

/-! ### Register read -/

section
variable {s : State} {addr len : Byte}

theorem blocking_readReq {pa : List PutAnswer} (h : Ready s) (hlen : len.toNat ≤ s.cfg.maxLen)
    (hput : s.putAnswers = List.replicate 7 .accepted ++ pa) :
    ∃ t, blocking (.readReq addr len) s = .next t ∧ t.status = .ok ∧
      Wrote (frameBytes s.cfg s.cfg.cmdRead addr len []) pa s t := by
  have hcheck := sendCheck_readReq (addr := addr) h.legal h.linkOpen h.idle hlen
  exact ⟨_, blocking_eq (execReadReq_starts h.legal h.linkOpen h.idle hlen)
    (seqRuns_send hcheck hput) h.idle (by simp), rfl, rfl, rfl, h.idle, rfl, rfl, rfl⟩

/-- The host has written EXPECT for one command (R32, R86). -/
def expecting (cmd : Byte) (s : State) : State :=
  { s with expectAny := false, expectCmd := some cmd }

/-- RECV of one expected command, with that frame next on the link, runs to its end (R140 to R157). -/
theorem blocking_recv_frame {cmd : Byte} {data : List Byte} {rest : List GetAnswer} (h : Ready s)
    (hcap : 2 ≤ s.cfg.syncCap) (hn : data.length = len.toNat)
    (hin : s.linkIn = (frameBytes s.cfg cmd addr len data).map .byte ++ rest) :
    ∃ t, blocking .recv (expecting cmd s) = .next t ∧ t.status = .ok ∧
      t.RxHolds cmd addr len data ∧ t.cfg = s.cfg ∧ t.busy = false ∧ t.linkIn = rest ∧
      t.linkOut = s.linkOut := by
  have hcheck : recvCheck (expecting cmd s) = .ok () :=
    recvCheck_eq_ok.2 ⟨h.legal, h.linkOpen, h.idle, .inr rfl⟩
  have hruns := seqRuns_recv_ok (noise := []) (w := sentFrame s.cfg cmd addr len data) hcheck hn hin
    (not_hasSync_nil _) hcap rfl (.inr rfl)
  have hbyte := len.isLt
  have hbound : 0 + 7 + data.length ≤ 5 + 255 + 2 := by omega
  have hidle := idle_of_rxState (t := completeRecv (received 0 (sentFrame s.cfg cmd addr len data) rest
    (expecting cmd s))) h.idle rfl rfl
  exact ⟨_, blocking_eq (execRecv_of_check hcheck) hruns hidle hbound, rfl, rxHolds_received _ _ _ _,
    rfl, hidle, rfl, rfl⟩

theorem rxBytes_of_rxHolds {cmd : Byte} {data : List Byte} (h : s.RxHolds cmd addr len data)
    (hn : data.length = len.toNat) (hlen : len.toNat ≤ s.cfg.maxLen) : s.rxBytes = some data := by
  obtain ⟨-, -, hl, hdata⟩ := h
  rw [State.rxBytes, hl]
  exact (congrArg s.rxData.readRange hn.symm).trans (hdata.readRange (hn ▸ hlen))

/-- The host call gives the data of the frame (R86, R174). -/
theorem recvExpecting_frame {cmd : Byte} {data : List Byte} {rest : List GetAnswer} (h : Ready s)
    (hcap : 2 ≤ s.cfg.syncCap) (hn : data.length = len.toNat) (hlen : len.toNat ≤ s.cfg.maxLen)
    (hin : s.linkIn = (frameBytes s.cfg cmd addr len data).map .byte ++ rest) :
    ∃ t, recvExpecting cmd s = .next (.ok data, t) ∧ t.busy = false ∧ t.linkIn = rest ∧
      t.linkOut = s.linkOut := by
  have hwrite : hostWrite (.expect false cmd) s = .next (expecting cmd s) := if_neg (by simp [h.idle])
  obtain ⟨t, hblock, hstatus, hheld, hcfg, hidle, hrest, hout⟩ := blocking_recv_frame h hcap hn hin
  have hbytes := rxBytes_of_rxHolds hheld hn (hcfg ▸ hlen)
  refine ⟨t, ?_, hidle, hrest, hout⟩
  simp only [recvExpecting, hwrite, andThen_next, hblock, hbytes, outcome, hstatus]

end

theorem remoteRead_length {m : Buffer} {addr len : Byte} {data : List Byte}
    (h : remoteRead m addr len = some data) : data.length = len.toNat := by
  unfold remoteRead at h
  split at h
  · exact (Buffer.readFrom_eq_some.1 h).1
  · cases h

/-- Settles O57: the request is sent whole, then the acknowledgment is the next frame on the link. -/
theorem registerReadReturnsTheRegisters : Obligations.RegisterReadReturnsTheRegisters := by
  intro s deviceCrc m addr len response pa rest hl ho hb hcap hlen hdev hack hput hin
  obtain ⟨data, hread, rfl⟩ := hack
  rw [deviceFrame_eq hdev] at hin
  obtain ⟨u, hblock, hstatus, hw⟩ := blocking_readReq (addr := addr) ⟨hl, ho, hb⟩ hlen hput
  rw [← hw.linkIn, ← hw.cfg] at hin
  rw [← hw.cfg] at hcap hlen
  obtain ⟨t, hrecv, hidle, hrest, hout⟩ := recvExpecting_frame (hw.ready ⟨hl, ho, hb⟩) hcap
    (remoteRead_length hread) hlen hin
  refine ⟨data, t, hread, ?_, hidle, hrest, hout.trans hw.linkOut⟩
  simp only [registerRead, hblock, andThen_next, hstatus, hrecv]

/-! ### Register write -/

/-- The frame of a register write (R175). -/
def writeFrame (c : Config) (addr : Byte) (data : List Byte) : List Byte :=
  frameBytes c c.cmdWrite addr (BitVec.ofNat 8 data.length) data

section
variable {s : State} {addr : Byte} {data : List Byte} {pa : List PutAnswer}

theorem blocking_write_sent (h : Ready s) (hn : data.length ≤ 255)
    (hmax : data.length ≤ s.cfg.maxLen)
    (hput : s.putAnswers = List.replicate (7 + data.length) .accepted ++ pa) :
    ∃ t, blocking (.write addr (BitVec.ofNat 8 data.length) data) s = .next t ∧ t.status = .ok ∧
      Wrote (writeFrame s.cfg addr data) pa s t := by
  have hcount := (toNat_ofNat_length hn).symm
  have hlen := hcount.symm.trans_le hmax
  have hcheck := sendCheck_write (addr := addr) h.legal h.linkOpen h.idle hcount hlen
  have hbound : 7 + data.length ≤ 5 + 255 + 2 := by omega
  exact ⟨_, blocking_eq (execWrite_starts h.legal h.linkOpen h.idle hcount hlen)
    (seqRuns_send hcheck hput) h.idle hbound, rfl, rfl, rfl, h.idle, rfl, rfl, rfl⟩

theorem blocking_write_rejected {k : Nat} (h : Ready s) (hn : data.length ≤ 255)
    (hmax : data.length ≤ s.cfg.maxLen) (hk : k < 7 + data.length)
    (hput : s.putAnswers = List.replicate k .accepted ++ .rejected :: pa) :
    ∃ t, blocking (.write addr (BitVec.ofNat 8 data.length) data) s = .next t ∧
      t.status = .error .transportWriteFailure ∧
      Wrote ((writeFrame s.cfg addr data).take k) pa s t := by
  have hcount := (toNat_ofNat_length hn).symm
  have hlen := hcount.symm.trans_le hmax
  have hcheck := sendCheck_write (addr := addr) h.legal h.linkOpen h.idle hcount hlen
  have hbound : k + 1 ≤ 5 + 255 + 2 := by omega
  exact ⟨_, blocking_eq (execWrite_starts h.legal h.linkOpen h.idle hcount hlen)
    (seqRuns_send_rejected hcheck hk hput) h.idle hbound, rfl, rfl, rfl, h.idle, rfl, rfl, rfl⟩

theorem registerWrite_sent (h : Ready s) (hn : data.length ≤ 255) (hmax : data.length ≤ s.cfg.maxLen)
    (hput : s.putAnswers = List.replicate (7 + data.length) .accepted ++ pa) :
    ∃ t, registerWrite addr data s = .next (.ok (), t) ∧
      Wrote (writeFrame s.cfg addr data) pa s t := by
  obtain ⟨t, hblock, hstatus, hw⟩ := blocking_write_sent (addr := addr) h hn hmax hput
  exact ⟨t, by simp only [registerWrite, hblock, andThen_next, outcome, hstatus], hw⟩

theorem registerWrite_rejected {k : Nat} (h : Ready s) (hn : data.length ≤ 255)
    (hmax : data.length ≤ s.cfg.maxLen) (hk : k < 7 + data.length)
    (hput : s.putAnswers = List.replicate k .accepted ++ .rejected :: pa) :
    ∃ t, registerWrite addr data s = .next (.error (.link .transportWriteFailure), t) ∧
      Wrote ((writeFrame s.cfg addr data).take k) pa s t := by
  obtain ⟨t, hblock, hstatus, hw⟩ := blocking_write_rejected (addr := addr) h hn hmax hk hput
  exact ⟨t, by simp only [registerWrite, hblock, andThen_next, outcome, hstatus], hw⟩

end

/-! ### The write-lock bracket -/

theorem writeReg_zero (r : DevReg) (data : List Byte) (s : State) :
    writeReg r 0 data s = registerWrite (Config.devAddr r) data s := by
  exact congrArg (registerWrite · data s) (BitVec.add_zero _)

theorem setLock_sent {s : State} {pa : List PutAnswer} (locked : Bool) (h : Ready s)
    (hmax : 1 ≤ s.cfg.maxLen) (hput : s.putAnswers = List.replicate 8 .accepted ++ pa) :
    ∃ t, setLock locked s = .next (.ok (), t) ∧
      Wrote (writeFrame s.cfg (Config.devAddr .lock) [lockByte locked]) pa s t := by
  rw [setLock, writeReg_zero]
  exact registerWrite_sent h (Nat.le_add_left 1 254) hmax hput

/-- Settles O58: the unlock is sent, then the write succeeds or fails, and the re-lock is sent. -/
theorem bracketRelocksAfterTheWrite : Obligations.BracketRelocksAfterTheWrite := by
  intro s r data k pa hl ho hb hn hone hmax frameOf
  have hs : Ready s := ⟨hl, ho, hb⟩
  refine ⟨fun hput => ?_, fun hk hput => ?_⟩
  · rw [List.replicate_add, List.replicate_add, List.append_assoc, List.append_assoc] at hput
    obtain ⟨u, hunlock, hu⟩ := setLock_sent false hs hone hput
    obtain ⟨v, hwrite, hv⟩ := registerWrite_sent (addr := Config.devAddr r) (hu.ready hs) hn
      (hu.cfg ▸ hmax) hu.putAnswers
    obtain ⟨t, hlock, ht⟩ := setLock_sent true (hv.ready (hu.ready hs)) (hv.cfg ▸ hu.cfg ▸ hone)
      hv.putAnswers
    refine ⟨t, ?_, ?_⟩
    · simp only [bracketWrite, hunlock, writeThenRelock, writeReg_zero, hwrite, hlock, firstError]
    · rw [ht.linkOut, hv.linkOut, hu.linkOut, hv.cfg, hu.cfg]
      rfl
  · rw [List.replicate_add, List.append_assoc] at hput
    obtain ⟨u, hunlock, hu⟩ := setLock_sent false hs hone hput
    obtain ⟨v, hwrite, hv⟩ := registerWrite_rejected (addr := Config.devAddr r) (hu.ready hs) hn
      (hu.cfg ▸ hmax) hk hu.putAnswers
    obtain ⟨t, hlock, ht⟩ := setLock_sent true (hv.ready (hu.ready hs)) (hv.cfg ▸ hu.cfg ▸ hone)
      hv.putAnswers
    refine ⟨t, ?_, ?_⟩
    · simp only [bracketWrite, hunlock, writeThenRelock, writeReg_zero, hwrite, hlock, firstError]
    · rw [ht.linkOut, hv.linkOut, hu.linkOut, hv.cfg, hu.cfg]
      rfl

end Sys2Proof.Machine
end
